-- ==== Sys2Proof/Word.lean ====
section
/-! DEFINITION. Words of the PZEM004T frame codec: bytes, device addresses, the six operations of the opcode map and a request
as the request ports carry it (00_scope.md R8, 20_memory.md R51, 30_encoding.md R76, 10_state.md R20). -/

namespace Sys2Proof

/-- R8: a byte, an unsigned integer 0..255; bit 0 is the least significant. -/
abbrev Byte := BitVec 8

/-- R51: a device address, an opaque 32-bit selector. -/
abbrev Addr := BitVec 32

/-- R76: the six operations of the opcode/response-tag table. -/
inductive Operation where
  | readVoltage
  | readCurrent
  | readPower
  | readEnergy
  | setAddress
  | setAlarm
  deriving DecidableEq, Repr

/-- R20: a request as it stands on `req_cmd`, `req_addr` and `req_payload`. -/
structure Request where
  cmd : Byte
  addr : Addr
  payload : Byte
  deriving DecidableEq, Repr

/-- R8: `{b0, b1, b2, b3}`, four bytes joined with the first the most significant. -/
def word32 (b0 b1 b2 b3 : Byte) : BitVec 32 := b0 ++ b1 ++ b2 ++ b3

end Sys2Proof
end

