-- ==== Sys2Proof/Config.lean ====
section
/-! DEFINITION. The block's parameters (00_scope.md R5) and the free values of the model: what the environment drives when
nothing is fixed for it (R6, R63, log 1 and 2), and the values the spec leaves open (93_implementation_defined.md section 1). -/

namespace Sys2Proof.Config

/-- R5, D8: the default of TIME_W, the width of the millisecond timestamp. The block and its system take the width as an argument;
the machine of the fixed names is theirs at this default (log 7). -/
abbrev timeW : Nat := 32

/-- R5, D10: the default of TIMEOUT_MS, the response window, an argument like TIME_W (log 7). -/
def timeoutMs : Nat := 1000

/-- R5: the bound on TIMEOUT_MS for a width, `0 <= TIMEOUT_MS < 2^TIME_W - 1`. -/
def TimeoutFits (w T : Nat) : Prop := T < 2 ^ w - 1

/-- R176, D20: FLOAT_OF, a total function from exact rationals to the consumer's float type. It is an argument of whatever
uses it, so nothing is assumed of it (log 8). -/
abbrev FloatOf (F : Type) := Rat → F

/-! Free values. Each is applied to the step counter `tick` of the state, so every step has a fresh one (log 2). -/

/-- R6: what the environment drives on `rst` in a step for which nothing is fixed. -/
opaque freeRst : Nat → Bool
/-- R6: what the requester drives on `req_valid` in a step for which nothing is fixed. -/
opaque freeReqValid : Nat → Bool
/-- R6: what the requester drives on `req_cmd` in a step for which nothing is fixed. -/
opaque freeReqCmd : Nat → Byte
/-- R6: what the requester drives on `req_addr` in a step for which nothing is fixed. -/
opaque freeReqAddr : Nat → Addr
/-- R6: what the requester drives on `req_payload` in a step for which nothing is fixed. -/
opaque freeReqPayload : Nat → Byte
/-- R6: what the transport drives on `tx_ready` in a step for which nothing is fixed. -/
opaque freeTxReady : Nat → Bool
/-- R6, R53: the bytes that arrive at the transport in a step for which nothing is fixed. -/
opaque freeArrivals : Nat → List Byte
/-- R6, R234: how far the clock collaborator's time moves in a step for which nothing is fixed, modulo 2^TIME_W. -/
opaque freeAdvance : Nat → Nat
/-- R20, 93 section 1: what stands on `rx_data` in a step with `rx_avail = 0` (log 10). -/
opaque freeRxData : Nat → Byte
/-- What stands on `tx_data` in SEND when `tx_idx = 7`, where no entry of `cmd_buf` exists: only in states no run reaches, in
which the step faults (log 9). -/
opaque freeTxData : Nat → Byte
/-- R232: the contents of the block's registers at power-up, by number in the order of R36 (log 17). -/
opaque powerUp : Nat → Nat

end Sys2Proof.Config
end

