-- ==== Sys2Proof/Syntax.lean ====
section
/-! DEFINITION. The block's instructions: one constructor per row of spec/opcode_table.json (42_operations.md R150 to R157, with
the operands of the notation of 30_encoding.md R81). -/

namespace Sys2Proof

/-- The requests of the opcode table. -/
inductive Instr where
  /-- R151, row RDV: read voltage from the device `addr`. -/
  | rdv (addr : Addr)
  /-- R152, row RDI: read current. -/
  | rdi (addr : Addr)
  /-- R153, row RDP: read power. -/
  | rdp (addr : Addr)
  /-- R154, row RDE: read energy. -/
  | rde (addr : Addr)
  /-- R155, row SETADDR: set device address. -/
  | setaddr (addr : Addr)
  /-- R156, row SETALARM: set the power alarm threshold. -/
  | setalarm (addr : Addr) (threshold : Byte)
  /-- R157, row .CMD-reserved: a request with a command byte outside 0xB0..0xB5. -/
  | cmdReserved (cmd : Byte) (addr : Addr) (payload : Byte)
  deriving DecidableEq, Repr

end Sys2Proof
end

