-- ==== Sys2Proof/WellFormed.lean ====
section
/-! DEFINITION. Well-formed instructions (30_encoding.md R78): every operand of the six operations is legal (R51, R71, R156); the
reserved row holds only command bytes outside 0xB0..0xB5. -/

namespace Sys2Proof

/-- R78: a command byte is legal if it is one of 0xB0 to 0xB5. -/
def legalCommand (c : Byte) : Bool := 0xB0#8 ≤ c && c ≤ 0xB5#8

/-- R78: the reserved row is well formed only for a reserved command byte; every other instruction always is. -/
def Instr.wellFormed : Instr → Bool
  | .rdv _ => true
  | .rdi _ => true
  | .rdp _ => true
  | .rde _ => true
  | .setaddr _ => true
  | .setalarm _ _ => true
  | .cmdReserved c _ _ => !legalCommand c

/-- The instruction is one of the six operations: its command byte is legal (R78). -/
def Instr.isOperation : Instr → Bool
  | .cmdReserved _ _ _ => false
  | .rdv _ => true
  | .rdi _ => true
  | .rdp _ => true
  | .rde _ => true
  | .setaddr _ => true
  | .setalarm _ _ => true

end Sys2Proof
end

