-- ==== Sys2Proof/Decode.lean ====
section
/-! DEFINITION. The opcode map, the checksum, the command frame, the decoders and the encoders (30_encoding.md R70 to R81,
40_checksum_encode_send.md R100 to R103). -/

namespace Sys2Proof

/-! ### The opcode map (R76) -/

/-- R76: the command byte of an operation. -/
def Operation.opcode : Operation → Byte
  | .readVoltage => 0xB0
  | .readCurrent => 0xB1
  | .readPower => 0xB2
  | .readEnergy => 0xB3
  | .setAddress => 0xB4
  | .setAlarm => 0xB5

/-- R76: the response tag of an operation, `TAG(c)` for its command byte `c`. -/
def Operation.tag : Operation → Byte
  | .readVoltage => 0xA0
  | .readCurrent => 0xA1
  | .readPower => 0xA2
  | .readEnergy => 0xA3
  | .setAddress => 0xA4
  | .setAlarm => 0xA5

/-- R76, R78: the operation a command byte selects; none for the 250 reserved values. -/
def Operation.ofByte? (c : Byte) : Option Operation :=
  if c = 0xB0 then some .readVoltage
  else if c = 0xB1 then some .readCurrent
  else if c = 0xB2 then some .readPower
  else if c = 0xB3 then some .readEnergy
  else if c = 0xB4 then some .setAddress
  else if c = 0xB5 then some .setAlarm
  else none

/-- R72: the payload byte sent for an operation: the requester's for 0xB5, 0x00 for every other. -/
def Operation.payload (op : Operation) (p : Byte) : Byte :=
  match op with
  | .setAlarm => p
  | .readVoltage => 0x00
  | .readCurrent => 0x00
  | .readPower => 0x00
  | .readEnergy => 0x00
  | .setAddress => 0x00

/-! ### Checksum (R100, R101) -/

/-- R100: the sum of the bytes, truncated to 8 bits. -/
def cs8 (bs : List Byte) : Byte := BitVec.ofNat 8 (bs.map BitVec.toNat).sum

/-- R101: the source's form of it, a 16-bit accumulation truncated to its low 8 bits. -/
def cs8Accumulated16 (bs : List Byte) : Byte :=
  (bs.foldl (fun (acc : BitVec 16) b => acc + b.setWidth 16) 0).setWidth 8

/-! ### The command frame (R70, R71, R103) -/

/-- R54, R71: address byte `k` (0 is the first on the wire), `a[31-8k : 24-8k]`. -/
def addrByte (a : Addr) (k : Nat) : Byte := a.extractLsb' (24 - 8 * k) 8

/-- R103: `encodeCommand(c, a, p)`, the 7-byte command frame of R70. -/
def encodeCommand (c : Byte) (a : Addr) (p : Byte) : Vector Byte 7 :=
  #v[c, addrByte a 0, addrByte a 1, addrByte a 2, addrByte a 3, p,
    cs8 [c, addrByte a 0, addrByte a 1, addrByte a 2, addrByte a 3, p]]

/-! ### Requests (R81) -/

/-- R20, R78: the instruction a request stands for. Total: a reserved command byte has an outcome of its own (D4). The payload is
read for 0xB5 only (R72; log 13). -/
def Request.decode (r : Request) : Instr :=
  match Operation.ofByte? r.cmd with
  | some .readVoltage => .rdv r.addr
  | some .readCurrent => .rdi r.addr
  | some .readPower => .rdp r.addr
  | some .readEnergy => .rde r.addr
  | some .setAddress => .setaddr r.addr
  | some .setAlarm => .setalarm r.addr r.payload
  | none => .cmdReserved r.cmd r.addr r.payload

/-- R81: the request a line of the notation presents; `req_payload` is ignored for 0xB0 to 0xB4 and driven 0x00 here (log 13). -/
def Instr.request : Instr → Request
  | .rdv a => ⟨0xB0, a, 0x00⟩
  | .rdi a => ⟨0xB1, a, 0x00⟩
  | .rdp a => ⟨0xB2, a, 0x00⟩
  | .rde a => ⟨0xB3, a, 0x00⟩
  | .setaddr a => ⟨0xB4, a, 0x00⟩
  | .setalarm a p => ⟨0xB5, a, p⟩
  | .cmdReserved c a p => ⟨c, a, p⟩

/-- R81: the encoding of a line, the command frame the block transmits for it; empty for a reserved command byte. -/
def Instr.encode : Instr → List Byte
  | .rdv a => (encodeCommand 0xB0 a 0x00).toList
  | .rdi a => (encodeCommand 0xB1 a 0x00).toList
  | .rdp a => (encodeCommand 0xB2 a 0x00).toList
  | .rde a => (encodeCommand 0xB3 a 0x00).toList
  | .setaddr a => (encodeCommand 0xB4 a 0x00).toList
  | .setalarm a p => (encodeCommand 0xB5 a p).toList
  | .cmdReserved _ _ _ => []

/-! ### Decoding bytes -/

/-- Why a byte sequence is no command frame (R70, R72, R73, R78, R80). -/
inductive FrameError where
  /-- R70, R80: not exactly 7 bytes. -/
  | wrongLength
  /-- R78: byte 0 is a reserved command byte. -/
  | reservedCommand
  /-- R73: byte 6 is not the checksum of bytes 0 to 5. -/
  | badChecksum
  /-- R72: byte 5 is not 0x00 for a command byte other than 0xB5. -/
  | unusedPayload
  deriving DecidableEq, Repr

/-- R70: the instruction a whole command frame stands for, or why it is none. -/
def decodeFrame (bytes : List Byte) : Except FrameError Instr :=
  match bytes with
  | [c, a0, a1, a2, a3, p, k] =>
    match Operation.ofByte? c with
    | none => .error .reservedCommand
    | some op =>
      if cs8 [c, a0, a1, a2, a3, p] ≠ k then .error .badChecksum
      else if op.payload p ≠ p then .error .unusedPayload
      else .ok (Request.decode ⟨c, word32 a0 a1 a2 a3, p⟩)
  | _ => .error .wrongLength

/-- R20, R70: the request laid out as the first six bytes of a command frame: command byte, address most significant byte first,
payload. The checksum byte is no input of the block (R103 computes it), so a seventh byte is not read (log 13). -/
def requestOfBytes? (bytes : List Byte) : Option Request :=
  match bytes with
  | c :: a0 :: a1 :: a2 :: a3 :: p :: _ => some ⟨c, word32 a0 a1 a2 a3, p⟩
  | _ => none

/-- The `n` bytes of a number, the least significant first (the numbering of spec/opcode_table.json). -/
def bytesOfNat : Nat → Nat → List Byte
  | 0, _ => []
  | n + 1, w => BitVec.ofNat 8 w :: bytesOfNat n (w / 256)

/-- The bytes of a table word: `nbits` bits of `w`, zero above them, up to the 7 bytes of CMD7. -/
def tableWordBytes (nbits w : Nat) : List Byte := bytesOfNat 7 (w % 2 ^ nbits)

/-- The instruction the decoder reads from a request laid out as the opcode table numbers its bits. -/
def decodeTableWord (nbits w : Nat) : Option Instr :=
  (requestOfBytes? (tableWordBytes nbits w)).map Request.decode

end Sys2Proof
end

