-- ==== Sys2Proof/Machine/State.lean ====
section
/-! DEFINITION. The machine's state: the block's registers (10_state.md R22 to R32), its ports (R20, R21), and the state outside
the block that its behaviour depends on (R34). Reset values: R36. -/

namespace Sys2Proof.Machine

/-- R22: the control state, in place of a program counter. -/
inductive St where
  /-- 0b00: no operation outstanding. -/
  | idle
  /-- 0b01: transmitting the command frame. -/
  | send
  /-- 0b10: assembling the response frame under the timeout. -/
  | recv
  /-- 0b11: validating length, checksum and tag. -/
  | check
  deriving DecidableEq, Repr

/-- R30, R200: the outcome codes. Code 7 is reserved and never written, so no constructor has it (log 12). -/
inductive Status where
  /-- 0: no outcome yet. -/
  | none
  /-- 1: a valid frame with the expected tag. -/
  | ok
  /-- 2: the window expired with no byte collected. -/
  | timeout
  /-- 3: the window expired with 1 to 5 bytes collected. -/
  | framing
  /-- 4: six bytes, wrong checksum. -/
  | checksum
  /-- 5: six bytes, right checksum, another tag. -/
  | tagMismatch
  /-- 6: a reserved command byte was presented. -/
  | badOp
  deriving DecidableEq, Repr

/-- R22 to R32: the registers of the block, its whole architectural state. `w` is TIME_W (R5). -/
structure Regs (w : Nat) where
  /-- R22: control state. -/
  st : St
  /-- R23: `cmd_buf[0..6]`. -/
  cmdBuf : Vector Byte 7
  /-- R24: index of the next byte to transmit. -/
  txIdx : BitVec 3
  /-- R25: the response tag expected. -/
  expTag : Byte
  /-- R26: `rx_buf[0..5]`. -/
  rxBuf : Vector Byte 6
  /-- R27: bytes collected so far. -/
  rxCnt : BitVec 3
  /-- R28: the one-shot leading-zero guard. -/
  leadGuard : Bool
  /-- R29: the start of the response window. -/
  tStart : BitVec w
  /-- R30: the outcome. -/
  status : Status
  /-- R31: the outcome marker. -/
  done : Bool
  /-- R32: the four data bytes of a successful response. -/
  resData : BitVec 32
  deriving DecidableEq, Repr

/-- R36: every register at its reset value. -/
def Regs.reset (w : Nat) : Regs w where
  st := .idle
  cmdBuf := #v[0, 0, 0, 0, 0, 0, 0]
  txIdx := 0
  expTag := 0
  rxBuf := #v[0, 0, 0, 0, 0, 0]
  rxCnt := 0
  leadGuard := false
  tStart := 0
  status := .none
  done := false
  resData := 0

/-- R20: the block's input ports as sampled in one step. `clk` is the step itself. -/
structure Pins (w : Nat) where
  rst : Bool
  reqValid : Bool
  reqCmd : Byte
  reqAddr : Addr
  reqPayload : Byte
  txReady : Bool
  rxAvail : Bool
  /-- Meaningful only when `rxAvail` is true. -/
  rxData : Byte
  nowMs : BitVec w
  deriving DecidableEq, Repr

/-- R21: the block's output ports in one step. -/
structure Outs where
  reqReady : Bool
  busy : Bool
  txValid : Bool
  txData : Byte
  rxPop : Bool
  done : Bool
  status : Status
  resData : BitVec 32
  deriving DecidableEq, Repr

/-- R6, R20, R53: everything the environment does in one step. The requester drives `req*`, the transport `txReady`, the devices and
the line `arrivals` (bytes entering the transport's queue, oldest first), the clock collaborator `advance` (how far its
time has moved since the step before, modulo 2^TIME_W). -/
structure EnvStep (w : Nat) where
  rst : Bool
  reqValid : Bool
  reqCmd : Byte
  reqAddr : Addr
  reqPayload : Byte
  txReady : Bool
  arrivals : List Byte
  advance : BitVec w
  deriving DecidableEq, Repr

/-- The whole system for TIME_W = `w` (R5): the block, and the environment's state the block's behaviour depends on (R34). Plain
data. -/
structure System (w : Nat) where
  /-- R22 to R32: the block's registers. -/
  regs : Regs w
  /-- R34, R53: the transport's queue of received, unread bytes, oldest first. -/
  rxq : List Byte
  /-- R52, R63: the bytes transferred to the transport so far, in order (TXQ). -/
  txq : List Byte
  /-- R34: the clock collaborator's time as last shown on `now_ms`. -/
  now : BitVec w
  /-- R6: what the environment does in the coming steps, the coming step first; past the end of the list it is free (log 1). -/
  inputs : List (EnvStep w)
  /-- The model's own counter of steps, which the free values of Config are applied to (log 2). -/
  tick : Nat
  deriving DecidableEq, Repr

/-- The machine of the fixed names: the system at the default TIME_W (R5, log 7). -/
structure State extends System Config.timeW
  deriving DecidableEq, Repr

/-- Why the machine stops. Each is raised only in a state that no run from reset reaches (R35), where the spec gives no rule. -/
inductive Fault where
  /-- Raised by a SEND step with `tx_idx = 7`: `cmd_buf[7]` does not exist (R50, R107). Safe (log 9). -/
  | cmdIndexOutside
  /-- Raised by a RECV step that stores a byte with `rx_cnt = 7`: `rx_buf[7]` does not exist (R50, R125). Safe (log 9). -/
  | rxIndexOutside
  /-- Raised by a CHECK step with `rx_cnt = 7`: none of R127 to R130 applies (R27, R131). Safe (log 9). -/
  | rxCountOutside
  deriving DecidableEq, Repr

/-- Why an instruction has no meaning in the model. -/
inductive Refusal where
  /-- Raised by no arm of exec: every instruction has its meaning. Safe. -/
  | notModelled (mnemonic : String)
  deriving DecidableEq, Repr

/-- R36, R232: the machine right after reset. The registers are as R36 says; the queues are empty, the clock shows 0 and nothing is
fixed for the environment (log 1, 2, 4, 5). -/
def System.reset (w : Nat) : System w where
  regs := Regs.reset w
  rxq := []
  txq := []
  now := 0
  inputs := []
  tick := 0

/-- R36, R232: the machine right after reset. -/
def State.reset : State := { toSystem := System.reset Config.timeW }

end Sys2Proof.Machine
end

