-- ==== Sys2Proof/Machine/Flags.lean ====
section
/-! DEFINITION. The block's flags: the outcome (`status`, `done`, `res_data`), its report, and the read-only view
(10_state.md R30 to R33, 60_exceptions.md R200, R207). -/

namespace Sys2Proof.Machine

/-- R22: the encoding of the control state. -/
def St.code : St → BitVec 2
  | .idle => 0b00
  | .send => 0b01
  | .recv => 0b10
  | .check => 0b11

/-- R200: the numeric outcome codes. -/
def Status.code : Status → BitVec 3
  | .none => 0
  | .ok => 1
  | .timeout => 2
  | .framing => 3
  | .checksum => 4
  | .tagMismatch => 5
  | .badOp => 6

/-- R9, R207: `report(S)`, in place of taking an exception: the outcome is written and marked. Nothing is saved and no vector
is taken. -/
def Regs.report {w : Nat} (r : Regs w) (outcome : Status) : Regs w :=
  { r with status := outcome, done := true }

/-- R127 to R131: how a CHECK step ends the operation: the data, the report, and IDLE. -/
def Regs.finish {w : Nat} (r : Regs w) (outcome : Status) (data : BitVec 32) : Regs w :=
  { r.report outcome with resData := data, st := .idle }

/-- R21: `busy`. -/
def Regs.busy {w : Nat} (r : Regs w) : Bool := r.st != .idle

/-- R33: the STATUS register of the read-only view: status, done, busy, and three bits hardwired to 0. -/
def Regs.statusView {w : Nat} (r : Regs w) : Byte :=
  0b000#3 ++ BitVec.ofBool r.busy ++ BitVec.ofBool r.done ++ r.status.code

/-- R33: a read of the read-only view by register number; no side effect, and no register at any other number (log 16). -/
def Regs.readView {w : Nat} (r : Regs w) (number : Nat) : Option (BitVec 32) :=
  match number with
  | 0 => some (r.statusView.setWidth 32)
  | 1 => some r.resData
  | _ => none

end Sys2Proof.Machine
end

