-- ==== Sys2Proof/Machine/Operands.lean ====
section
/-! DEFINITION. The operand forms: the request ports, the data bytes of a response and the bytes collected
(20_memory.md R54, 30_encoding.md R72 to R75, 43_value_decode.md R170). -/

namespace Sys2Proof.Machine

/-- R20: the request on the ports. -/
def Pins.request {w : Nat} (p : Pins w) : Request := ⟨p.reqCmd, p.reqAddr, p.reqPayload⟩

/-- R54, R170: data byte `dk` of `res_data`, `res_data[31-8k : 24-8k]`. -/
def dataByte (resData : BitVec 32) (k : Nat) : Byte := resData.extractLsb' (24 - 8 * k) 8

/-- R170: `hi16 = (d0 << 8) | d1`. -/
def hi16 (resData : BitVec 32) : Nat := (dataByte resData 0).toNat * 256 + (dataByte resData 1).toNat

/-- R74: the first five bytes of the response frame, the bytes its checksum covers. -/
def Regs.rxSummed {w : Nat} (r : Regs w) : List Byte := r.rxBuf.toList.take 5

/-- R75: the four data bytes of the response frame, `{d0, d1, d2, d3}`. -/
def Regs.rxPayload {w : Nat} (r : Regs w) : BitVec 32 := word32 r.rxBuf[1] r.rxBuf[2] r.rxBuf[3] r.rxBuf[4]

/-- R107: the byte at `tx_idx`, if the buffer has one there. -/
def Regs.cmdByte? {w : Nat} (r : Regs w) : Option Byte := r.cmdBuf[r.txIdx.toNat]?

end Sys2Proof.Machine
end

