-- ==== Sys2Proof/Machine/Ops.lean ====
section
/-! DEFINITION. The named operations over the block's registers and buffers: accepting and refusing a request, moving one byte
each way, and the response window (40_checksum_encode_send.md R104, R105, R107, R108; 41_receive_check.md R120, R121, R124, R125). -/

namespace Sys2Proof.Machine

/-- R104: accept a legal request for operation `op`. -/
def Regs.accept {w : Nat} (r : Regs w) (op : Operation) (a : Addr) (p : Byte) : Regs w :=
  { r with
    cmdBuf := encodeCommand op.opcode a (op.payload p)
    expTag := op.tag
    txIdx := 0
    rxCnt := 0
    leadGuard := true
    status := .none
    done := false
    resData := 0
    st := .send }

/-- R105: refuse a reserved command byte. -/
def Regs.refuse {w : Nat} (r : Regs w) : Regs w :=
  { r.report .badOp with resData := 0 }

/-- R107, R108: the byte at `tx_idx` has been transferred; the last one also opens the response window. -/
def Regs.sent {w : Nat} (r : Regs w) (now : BitVec w) : Regs w :=
  if r.txIdx = 6 then { r with txIdx := r.txIdx + 1, st := .recv, tStart := now }
  else { r with txIdx := r.txIdx + 1 }

/-- R120: `elapsed = (Now() - t_start) mod 2^TIME_W`. -/
def Regs.elapsed {w : Nat} (r : Regs w) (now : BitVec w) : BitVec w := now - r.tStart

/-- R121: the loop condition, `exit = (rx_cnt = 6) or (elapsed > T)`. -/
def Regs.exits {w : Nat} (r : Regs w) (T : Nat) (now : BitVec w) : Bool :=
  r.rxCnt == 6 || T < (r.elapsed now).toNat

/-- R125: store a byte at `rx_cnt`. -/
def Regs.store {w : Nat} (r : Regs w) (b : Byte) : Except Fault (Regs w) :=
  if h : r.rxCnt.toNat < 6 then
    .ok { r with rxBuf := r.rxBuf.set r.rxCnt.toNat b h, rxCnt := r.rxCnt + 1, leadGuard := false }
  else .error .rxIndexOutside

/-- R124: take a byte; the guard discards a zero that is the first byte taken. -/
def Regs.take {w : Nat} (r : Regs w) (b : Byte) : Except Fault (Regs w) :=
  if r.leadGuard = true ∧ b = 0x00 then .ok { r with leadGuard := false }
  else r.store b

end Sys2Proof.Machine
end

