-- ==== Sys2Proof/Machine/Block.lean ====
section
/-! DEFINITION. One step of the block, for any TIME_W (`w`) and TIMEOUT_MS (`T`): the outputs and the next registers, state by
state (00_scope.md R7, R10; 10_state.md R21; 40_checksum_encode_send.md R104 to R110; 41_receive_check.md R120 to R131;
70_reset_and_hazards.md R230). -/

namespace Sys2Proof.Machine

/-- R104 to R106: a step in IDLE. -/
def Regs.idleStep {w : Nat} (r : Regs w) (p : Pins w) : Regs w :=
  if p.reqValid then
    match Operation.ofByte? p.reqCmd with
    | some op => r.accept op p.reqAddr p.reqPayload
    | none => r.refuse
  else r

/-- R107, R108: a step in SEND. -/
def Regs.sendStep {w : Nat} (r : Regs w) (p : Pins w) : Except Fault (Regs w) :=
  match r.cmdByte? with
  | none => .error .cmdIndexOutside
  | some _ => .ok (if p.txReady then r.sent p.nowMs else r)

/-- R121 to R125: a step in RECV. -/
def Regs.recvStep {w : Nat} (r : Regs w) (T : Nat) (p : Pins w) : Except Fault (Regs w) :=
  if r.exits T p.nowMs then .ok { r with st := .check }
  else if p.rxAvail then r.take p.rxData
  else .ok r

/-- R127 to R131: a step in CHECK, the four checks in the order of R206. -/
def Regs.checkStep {w : Nat} (r : Regs w) : Except Fault (Regs w) :=
  if r.rxCnt.toNat < 6 then .ok (r.finish (if r.rxCnt = 0 then .timeout else .framing) 0)
  else if r.rxCnt ≠ 6 then .error .rxCountOutside
  else if cs8 r.rxSummed ≠ r.rxBuf[5] then .ok (r.finish .checksum 0)
  else if r.rxBuf[0] ≠ r.expTag then .ok (r.finish .tagMismatch 0)
  else .ok (r.finish .ok r.rxPayload)

/-- R7, R10, R230: the registers after the step. -/
def Regs.next {w : Nat} (r : Regs w) (T : Nat) (p : Pins w) : Except Fault (Regs w) :=
  if p.rst then .ok (Regs.reset w)
  else
    match r.st with
    | .idle => .ok (r.idleStep p)
    | .send => r.sendStep p
    | .recv => r.recvStep T p
    | .check => r.checkStep

/-- R21: `req_ready`. -/
def Regs.reqReady {w : Nat} (r : Regs w) (p : Pins w) : Bool := r.st == .idle && !p.rst

/-- R107, R110: `tx_valid`. -/
def Regs.txValid {w : Nat} (r : Regs w) (p : Pins w) : Bool := r.st == .send && !p.rst

/-- R107, R110: `tx_data`. -/
def Regs.txData {w : Nat} (r : Regs w) (p : Pins w) (tick : Nat) : Byte :=
  if r.txValid p then
    match r.cmdByte? with
    | some b => b
    | none => Config.freeTxData tick
  else 0x00

/-- R126: `rx_pop`. -/
def Regs.rxPop {w : Nat} (r : Regs w) (T : Nat) (p : Pins w) : Bool :=
  r.st == .recv && !p.rst && !r.exits T p.nowMs && p.rxAvail

/-- R21, R230: all the output ports in the step; `done`, `status`, `res_data` and `busy` show the registers. -/
def Regs.outs {w : Nat} (r : Regs w) (T : Nat) (p : Pins w) (tick : Nat) : Outs where
  reqReady := r.reqReady p
  busy := r.busy
  txValid := r.txValid p
  txData := r.txData p tick
  rxPop := r.rxPop T p
  done := r.done
  status := r.status
  resData := r.resData

end Sys2Proof.Machine
end

