-- ==== Sys2Proof/Machine/Environment.lean ====
section
/-! DEFINITION. The block in its environment: what the environment does in the coming step, one clock edge of the whole machine,
a request on the ports, and the fetch (00_scope.md R6, R7; 20_memory.md R52, R53, R60, R63; 40_checksum_encode_send.md R106). The
system's functions take TIME_W (`w`) and TIMEOUT_MS (`T`, with its default) as arguments (R5); those of State are theirs at the
defaults. -/

namespace Sys2Proof.Machine

/-- R6: what the environment does in step `k` when nothing is fixed for it: free values (log 1, 2). -/
def EnvStep.free (w k : Nat) : EnvStep w where
  rst := Config.freeRst k
  reqValid := Config.freeReqValid k
  reqCmd := Config.freeReqCmd k
  reqAddr := Config.freeReqAddr k
  reqPayload := Config.freeReqPayload k
  txReady := Config.freeTxReady k
  arrivals := Config.freeArrivals k
  advance := BitVec.ofNat w (Config.freeAdvance k)

/-- A step in which the requester presents a request and the rest of the environment does nothing. -/
def EnvStep.presenting {w : Nat} (q : Request) : EnvStep w where
  rst := false
  reqValid := true
  reqCmd := q.cmd
  reqAddr := q.addr
  reqPayload := q.payload
  txReady := false
  arrivals := []
  advance := 0

/-- What the environment does, but with request `q` on the request ports. -/
def EnvStep.withRequest {w : Nat} (e : EnvStep w) (q : Request) : EnvStep w :=
  { e with reqValid := true, reqCmd := q.cmd, reqAddr := q.addr, reqPayload := q.payload }

/-- What the environment does in the coming step: the first of `inputs`, and free past their end. -/
def System.coming {w : Nat} (s : System w) : EnvStep w :=
  match s.inputs with
  | e :: _ => e
  | [] => EnvStep.free w s.tick

/-- R53, R63: the transport's queue in the step: a byte that arrives in a step can be taken in that step (log 6). -/
def System.queue {w : Nat} (s : System w) (e : EnvStep w) : List Byte := s.rxq ++ e.arrivals

/-- R53, R20: `rx_data`, the oldest unread byte; any value when there is none (log 10). -/
def rxHead (queue : List Byte) (tick : Nat) : Byte :=
  match queue with
  | b :: _ => b
  | [] => Config.freeRxData tick

/-- R20: the input ports the block samples in the step. -/
def System.pins {w : Nat} (s : System w) (e : EnvStep w) : Pins w where
  rst := e.rst
  reqValid := e.reqValid
  reqCmd := e.reqCmd
  reqAddr := e.reqAddr
  reqPayload := e.reqPayload
  txReady := e.txReady
  rxAvail := !(s.queue e).isEmpty
  rxData := rxHead (s.queue e) s.tick
  nowMs := s.now + e.advance

/-- R21: the output ports in the step. -/
def System.outs {w : Nat} (s : System w) (e : EnvStep w) (T : Nat := Config.timeoutMs) : Outs :=
  s.regs.outs T (s.pins e) s.tick

/-- R53: what is left in the transport's queue after the step. -/
def System.queueAfter {w : Nat} (s : System w) (e : EnvStep w) (T : Nat := Config.timeoutMs) : List Byte :=
  if (s.outs e T).rxPop then (s.queue e).tail else s.queue e

/-- R52: the bytes transferred to the transport up to the end of the step. -/
def System.sentAfter {w : Nat} (s : System w) (e : EnvStep w) (T : Nat := Config.timeoutMs) : List Byte :=
  if (s.outs e T).txValid && e.txReady then s.txq ++ [(s.outs e T).txData] else s.txq

/-- R7: one clock edge of the system, with the environment doing `e`. -/
def System.edge {w : Nat} (s : System w) (e : EnvStep w) (T : Nat := Config.timeoutMs) : Except Fault (System w) :=
  match s.regs.next T (s.pins e) with
  | .error f => .error f
  | .ok r =>
    .ok
      { regs := r
        rxq := s.queueAfter e T
        txq := s.sentAfter e T
        now := s.now + e.advance
        inputs := s.inputs.tail
        tick := s.tick + 1 }

/-- R104 to R106: the clock edge in which the requester presents `q`: accepted in IDLE, unsampled in every other control state, and
in a reset step the reset of R230 (log 15). -/
def System.present {w : Nat} (s : System w) (q : Request) (T : Nat := Config.timeoutMs) : Except Fault (System w) :=
  s.edge (s.coming.withRequest q) T

/-- R60, R106: the instruction the coming step accepts: the request on the ports, in IDLE and outside reset. -/
def System.fetch {w : Nat} (s : System w) : Option Instr :=
  if s.regs.reqReady (s.pins s.coming) && s.coming.reqValid then
    some (Request.decode ⟨s.coming.reqCmd, s.coming.reqAddr, s.coming.reqPayload⟩)
  else none

/-- R5, R7: one step of the system, for any TIME_W and TIMEOUT_MS. A step that accepts a request runs it; every other step goes on
with the operation in progress, idles or resets. -/
def System.step {w : Nat} (s : System w) (T : Nat := Config.timeoutMs) : Except Fault (System w) :=
  match s.fetch with
  | some i => s.present i.request T
  | none => s.edge s.coming T

/-! ### The machine of the fixed names, at the defaults of R5 (log 7) -/

/-- A step's outcome in the host's form. -/
def outcome (o : Except Fault (System Config.timeW)) : Host.Outcome State Fault Refusal :=
  match o with
  | .error f => .fault f
  | .ok t => .next { toSystem := t }

/-- R7: one clock edge of the machine, with the environment doing `e`. -/
def State.edge (s : State) (e : EnvStep Config.timeW) : Host.Outcome State Fault Refusal :=
  outcome (s.toSystem.edge e Config.timeoutMs)

/-- R104 to R106: the clock edge in which the requester presents `q` (log 15). -/
def State.present (s : State) (q : Request) : Host.Outcome State Fault Refusal :=
  outcome (s.toSystem.present q Config.timeoutMs)

/-- The machine with the request in table word `w` on the ports of the very next step, and the block in IDLE to accept it
(log 3). -/
def State.placing (s : State) (nbits w : Nat) : State :=
  match requestOfBytes? (tableWordBytes nbits w) with
  | some q => { s with regs := { s.regs with st := .idle }, inputs := EnvStep.presenting q :: s.inputs }
  | none => s

/-- R232, D2: the registers at power-up, before the first reset step: any value (log 17). -/
def Regs.powerUp (w : Nat) : Regs w where
  st :=
    match Config.powerUp 0 % 4 with
    | 0 => .idle
    | 1 => .send
    | 2 => .recv
    | _ => .check
  cmdBuf := Vector.ofFn (fun i => BitVec.ofNat 8 (Config.powerUp (1 + i)))
  txIdx := BitVec.ofNat 3 (Config.powerUp 8)
  expTag := BitVec.ofNat 8 (Config.powerUp 9)
  rxBuf := Vector.ofFn (fun i => BitVec.ofNat 8 (Config.powerUp (10 + i)))
  rxCnt := BitVec.ofNat 3 (Config.powerUp 16)
  leadGuard := Config.powerUp 17 % 2 == 1
  tStart := BitVec.ofNat w (Config.powerUp 18)
  status :=
    match Config.powerUp 19 % 7 with
    | 0 => .none
    | 1 => .ok
    | 2 => .timeout
    | 3 => .framing
    | 4 => .checksum
    | 5 => .tagMismatch
    | _ => .badOp
  done := Config.powerUp 20 % 2 == 1
  resData := BitVec.ofNat 32 (Config.powerUp 21)

/-- R232, D2: the machine at power-up (log 17). -/
def State.powerUp : State := { State.reset with regs := Regs.powerUp Config.timeW }

end Sys2Proof.Machine
end

