-- ==== Sys2Proof/Machine/ReadOperations.lean ====
section
/-! DEFINITION. The four read operations (42_operations.md R150 to R154): each is the clock edge that presents its request. The rest
of the operation (send, receive, check) is what the following clock edges do with the registers this one latches. -/

namespace Sys2Proof.Machine

/-- R151: RDV, `OP(0xB0, a, 0)`. -/
def execRdv (addr : Addr) (s : State) : Host.Outcome State Fault Refusal := s.present ⟨0xB0, addr, 0x00⟩

/-- R152: RDI, `OP(0xB1, a, 0)`. -/
def execRdi (addr : Addr) (s : State) : Host.Outcome State Fault Refusal := s.present ⟨0xB1, addr, 0x00⟩

/-- R153: RDP, `OP(0xB2, a, 0)`. -/
def execRdp (addr : Addr) (s : State) : Host.Outcome State Fault Refusal := s.present ⟨0xB2, addr, 0x00⟩

/-- R154: RDE, `OP(0xB3, a, 0)`. -/
def execRde (addr : Addr) (s : State) : Host.Outcome State Fault Refusal := s.present ⟨0xB3, addr, 0x00⟩

end Sys2Proof.Machine
end

