-- ==== Sys2Proof/Machine/ReservedCommands.lean ====
section
/-! DEFINITION. Requests with a reserved command byte (30_encoding.md R78, 40_checksum_encode_send.md R105, 42_operations.md R157). -/

namespace Sys2Proof.Machine

/-- R105, R157: .CMD-reserved, refused in one step with BADOP. -/
def execCmdReserved (cmd : Byte) (addr : Addr) (payload : Byte) (s : State) : Host.Outcome State Fault Refusal :=
  s.present ⟨cmd, addr, payload⟩

end Sys2Proof.Machine
end

