-- ==== Sys2Proof/Machine/SetOperations.lean ====
section
/-! DEFINITION. The two set operations (42_operations.md R155, R156): each is the clock edge that presents its request. -/

namespace Sys2Proof.Machine

/-- R155: SETADDR, `OP(0xB4, a, 0)`; the address goes into the frame as given. -/
def execSetaddr (addr : Addr) (s : State) : Host.Outcome State Fault Refusal := s.present ⟨0xB4, addr, 0x00⟩

/-- R156: SETALARM, `OP(0xB5, a, p)`; the threshold is an opaque byte. -/
def execSetalarm (addr : Addr) (threshold : Byte) (s : State) : Host.Outcome State Fault Refusal :=
  s.present ⟨0xB5, addr, threshold⟩

end Sys2Proof.Machine
end

