-- ==== Sys2Proof/Machine/Dispatch.lean ====
section
/-! DEFINITION. exec: one arm per constructor of Instr, each one call of its meaning. -/

namespace Sys2Proof.Machine

def exec (i : Instr) (s : State) : Host.Outcome State Fault Refusal :=
  match i with
  | .rdv addr => Sys2Proof.Machine.execRdv addr s
  | .rdi addr => Sys2Proof.Machine.execRdi addr s
  | .rdp addr => Sys2Proof.Machine.execRdp addr s
  | .rde addr => Sys2Proof.Machine.execRde addr s
  | .setaddr addr => Sys2Proof.Machine.execSetaddr addr s
  | .setalarm addr threshold => Sys2Proof.Machine.execSetalarm addr threshold s
  | .cmdReserved cmd addr payload => Sys2Proof.Machine.execCmdReserved cmd addr payload s

end Sys2Proof.Machine
end

