-- ==== Sys2Proof/Machine/Step.lean ====
section
/-! DEFINITION. step: one clock edge (00_scope.md R7). A step that accepts a request runs it (R104, R105); every other step goes on
with the operation in progress, idles or resets. -/

namespace Sys2Proof.Machine

/-- R7: one step. -/
def step (s : State) : Host.Outcome State Fault Refusal :=
  match s.fetch with
  | some i => exec i s
  | none => s.edge s.coming

/-- The machine with table word `w` placed where step fetches its next instruction: on the request ports of the coming step. -/
def State.withFetchWord (s : State) (nbits w : Nat) : State := s.placing nbits w

end Sys2Proof.Machine
end

