-- ==== Sys2Proof/Machine/Reference.lean ====
section
/-! DEFINITION. The reference environment of 20_memory.md R63, which drives the machine's inputs: a list of requests, received bytes
with arrival times, and one millisecond a step. It is the spec's own and makes no claim about a real transport. -/

namespace Sys2Proof.Machine

/-- R63: an entry of RXQ. -/
structure RxByte where
  /-- `arrival_ms`, compared with `now_ms`. -/
  arrivalMs : Nat
  byte : Byte
  /-- The first step in which the byte can be there: 0 but where a vector says from which step on it arrives (log 14). -/
  fromStep : Nat := 0
  deriving DecidableEq, Repr

/-- R63: the reference environment before step `k`. -/
structure RefEnv where
  /-- The requester's list. -/
  requests : List Request
  /-- RXQ, in arrival order. -/
  rx : List RxByte
  /-- The time shown in step 0. -/
  t0 : Nat
  /-- The step's number, counted from the first step after reset. -/
  k : Nat
  /-- The steps in which the vector says `tx_ready = 0`. -/
  txHeld : List Nat
  /-- The steps in which the vector says `rst = 1`. -/
  resets : List Nat
  deriving DecidableEq, Repr

/-- R81: the address `a.b.c.d` of the notation. -/
def dotted (a b c d : Byte) : Addr := word32 a b c d

/-- R82: `RX @t: b0 b1 ...`, one byte per millisecond from time `t`. -/
def rxAt (t : Nat) (bytes : List Byte) (fromStep : Nat := 0) : List RxByte :=
  match bytes with
  | [] => []
  | b :: bs => ⟨t, b, fromStep⟩ :: rxAt (t + 1) bs fromStep

/-- R63: `now_ms` in step `k`, `(t0 + k) mod 2^TIME_W`. -/
def RefEnv.nowMs (env : RefEnv) (w : Nat) : BitVec w := BitVec.ofNat w (env.t0 + env.k)

/-- R63: the head of RXQ, in a step with `arrival_ms <= now_ms`. -/
def RefEnv.available (env : RefEnv) (w : Nat) : List Byte :=
  match env.rx with
  | x :: _ => if x.arrivalMs ≤ (env.nowMs w).toNat ∧ x.fromStep ≤ env.k then [x.byte] else []
  | [] => []

/-- R63: the requester presents a request exactly in a step with `req_ready = 1`. -/
def RefEnv.presents {w : Nat} (env : RefEnv) (s : System w) : Bool := s.regs.st == .idle && !env.resets.contains env.k

/-- R63: what the environment does in step `k`. Bytes the transport already held before RXQ come first. -/
def RefEnv.drive {w : Nat} (env : RefEnv) (s : System w) : EnvStep w :=
  let e : EnvStep w :=
    { rst := env.resets.contains env.k
      reqValid := false
      reqCmd := 0
      reqAddr := 0
      reqPayload := 0
      txReady := !env.txHeld.contains env.k
      arrivals := if s.rxq.isEmpty then env.available w else []
      advance := env.nowMs w - s.now }
  match env.requests with
  | q :: _ => if env.presents s then e.withRequest q else e
  | [] => e

/-- R63: the environment after step `k`: `rx_pop = 1` removes the head of RXQ. -/
def RefEnv.after {w : Nat} (env : RefEnv) (s : System w) (T : Nat := Config.timeoutMs) : RefEnv :=
  { env with
    requests := if env.presents s then env.requests.tail else env.requests
    rx := if s.rxq.isEmpty && (s.outs (env.drive s) T).rxPop then env.rx.tail else env.rx
    k := env.k + 1 }

/-- R63: one step of the whole system. A byte of RXQ that was not taken stays in RXQ. -/
def RefEnv.step (env : RefEnv) (s : State) : Host.Outcome (RefEnv × State) Fault Refusal :=
  match Sys2Proof.Machine.step { s with inputs := [env.drive s.toSystem] } with
  | .next t => .next (env.after s.toSystem, if s.rxq.isEmpty then { t with rxq := [] } else t)
  | .fault f => .fault f
  | .refused r => .refused r

/-- R63: `n` steps of the whole system. -/
def RefEnv.run : Nat → RefEnv → State → Host.Outcome (RefEnv × State) Fault Refusal
  | 0, env, s => .next (env, s)
  | n + 1, env, s =>
    match env.step s with
    | .next (env', t) => RefEnv.run n env' t
    | .fault f => .fault f
    | .refused r => .refused r

end Sys2Proof.Machine
end

