-- ==== Sys2Proof/Machine/Values.lean ====
section
/-! DEFINITION. The consumer's pure decodes of a response's data bytes, as exact values (43_value_decode.md R170 to R178). -/

namespace Sys2Proof.Machine

/-- R171: the numerator of the voltage in tenths of a volt. -/
def decivolts (resData : BitVec 32) : Nat := 10 * hi16 resData + (dataByte resData 2).toNat

/-- R171: decodeVoltage, exact, in volts. -/
def decodeVoltage (resData : BitVec 32) : Rat := (hi16 resData : Rat) + ((dataByte resData 2).toNat : Rat) / 10

/-- R172: the numerator of the current in hundredths of an ampere. -/
def centiamps (resData : BitVec 32) : Nat := 100 * hi16 resData + (dataByte resData 2).toNat

/-- R172: decodeCurrent, exact, in amperes. -/
def decodeCurrent (resData : BitVec 32) : Rat := (hi16 resData : Rat) + ((dataByte resData 2).toNat : Rat) / 100

/-- R173: decodePower, in watts; `d2` and `d3` are ignored (C4). -/
def decodePower (resData : BitVec 32) : Nat := hi16 resData

/-- R174: decodeEnergy, in watt-hours, `(d0 << 16) | (d1 << 8) | d2`. -/
def decodeEnergy (resData : BitVec 32) : Nat :=
  (dataByte resData 0).toNat * 65536 + (dataByte resData 1).toNat * 256 + (dataByte resData 2).toNat

/-- R175: decodeAck. -/
def decodeAck (status : Status) : Bool := status == .ok

/-- R177: what the consumer reads from a finished operation. -/
inductive Reading where
  | voltage (volts : Rat)
  | current (amperes : Rat)
  | power (watts : Nat)
  | energy (wattHours : Nat)
  | ack (success : Bool)
  deriving DecidableEq, Repr

/-- R177: a decode of data bytes is defined only when `status = OK` and `done = 1`. -/
def Regs.hasData {w : Nat} (r : Regs w) : Bool := r.status == .ok && r.done

/-- R177: the reading of the operation whose command byte is in `cmd_buf[0]`; a read operation has no value on failure, and a set
operation's ack is then false (log 11). -/
def Regs.reading? {w : Nat} (r : Regs w) : Option Reading :=
  match Operation.ofByte? r.cmdBuf[0] with
  | some .readVoltage => if r.hasData then some (.voltage (decodeVoltage r.resData)) else none
  | some .readCurrent => if r.hasData then some (.current (decodeCurrent r.resData)) else none
  | some .readPower => if r.hasData then some (.power (decodePower r.resData)) else none
  | some .readEnergy => if r.hasData then some (.energy (decodeEnergy r.resData)) else none
  | some .setAddress => some (.ack (decodeAck r.status))
  | some .setAlarm => some (.ack (decodeAck r.status))
  | none => none

/-- R176: the reading in the consumer's float type, by FLOAT_OF; an ack is no number. -/
def Reading.toFloat? {F : Type} (floatOf : Config.FloatOf F) : Reading → Option F
  | .voltage v => some (floatOf v)
  | .current a => some (floatOf a)
  | .power p => some (floatOf (p : Rat))
  | .energy e => some (floatOf (e : Rat))
  | .ack _ => none

end Sys2Proof.Machine
end

