-- ==== Sys2Proof/Safety.lean ====
section
/-! DEFINITION. The terms claims are stated in: the invariants of 10_state.md R35, what has gone to the transport (R109), the
open window (41_receive_check.md R121), and the source's readResponse as a function of the bytes taken (41_receive_check.md). -/

namespace Sys2Proof.Machine

/-- `k` steps of the machine, stopping at the first that does not answer a next state. -/
def run : Nat → State → Host.Outcome State Fault Refusal
  | 0, s => .next s
  | k + 1, s =>
    match step s with
    | .next t => run k t
    | .fault f => .fault f
    | .refused x => .refused x

/-- R5: `k` steps of the system for any TIME_W and TIMEOUT_MS. -/
def System.run {w : Nat} : Nat → System w → (T : Nat := Config.timeoutMs) → Except Fault (System w)
  | 0, s, _ => .ok s
  | k + 1, s, T =>
    match s.step T with
    | .ok t => System.run k t T
    | .error f => .error f

/-- R35: the invariants of the block's registers, item by item. -/
structure Regs.Inv {w : Nat} (r : Regs w) : Prop where
  /-- Item 1. -/
  count_le : r.rxCnt.toNat ≤ 6
  /-- Item 2. -/
  guard_count : r.leadGuard = true → r.rxCnt = 0
  /-- Item 3. -/
  done_idle : r.done = true → r.st = .idle
  /-- Item 4. -/
  done_status : r.done = true ↔ r.status ≠ .none
  /-- Item 5, first half. -/
  send_index : r.st = .send → r.txIdx.toNat ≤ 6
  /-- Item 5, second half. -/
  sent_index : r.st = .recv ∨ r.st = .check → r.txIdx = 7
  /-- Item 6. -/
  data_zero : r.status ≠ .ok → r.resData = 0
  /-- Item 7. -/
  frame_checksum : r.cmdBuf[6] = cs8 (r.cmdBuf.toList.take 6)
  /-- Item 8. -/
  busy_tag : r.st ≠ .idle → r.expTag = r.cmdBuf[0] - 0x10 ∧ legalCommand r.cmdBuf[0] = true

/-- R109: what has been sent of the operation in progress is its command frame, in index order. -/
structure State.SentInv (s : State) : Prop where
  /-- In SEND the bytes before `tx_idx` are the last ones sent. -/
  sending : s.regs.st = .send → s.regs.cmdBuf.toList.take s.regs.txIdx.toNat <:+ s.txq
  /-- In RECV and CHECK the whole frame is the last that was sent. -/
  sent : s.regs.st = .recv ∨ s.regs.st = .check → s.regs.cmdBuf.toList <:+ s.txq

/-- R70, R103: the seven bytes of a command frame, written out: command byte, address most significant byte first, payload, sum. -/
def wireFrame (c : Byte) (a : Addr) (p : Byte) : Vector Byte 7 :=
  #v[c, a.extractLsb' 24 8, a.extractLsb' 16 8, a.extractLsb' 8 8, a.extractLsb' 0 8, p,
    BitVec.ofNat 8 (c.toNat + (a.extractLsb' 24 8).toNat + (a.extractLsb' 16 8).toNat + (a.extractLsb' 8 8).toNat
      + (a.extractLsb' 0 8).toNat + p.toNat)]

/-- R104: the registers after a legal request has been accepted, with the frame and the tag it latched. -/
def Regs.latched {w : Nat} (r : Regs w) (frame : Vector Byte 7) (tag : Byte) : Regs w :=
  { r with cmdBuf := frame, expTag := tag, txIdx := 0, rxCnt := 0, leadGuard := true, status := .none, done := false,
           resData := 0, st := .send }

/-- R26: two register files that agree but for the stale entries of `rx_buf`, those at `rx_cnt` and above. -/
def Regs.agree {w : Nat} (r r' : Regs w) : Prop :=
  r' = { r with rxBuf := r'.rxBuf } ∧ ∀ (i : Nat) (h : i < 6), i < r.rxCnt.toNat → r.rxBuf[i] = r'.rxBuf[i]

/-- A state one clock edge later, with the given registers and queues: time has moved as the environment says, and what it did is
used up. -/
def State.advanced (s : State) (r : Regs Config.timeW) (rxq txq : List Byte) : State where
  regs := r
  rxq := rxq
  txq := txq
  now := s.now + s.coming.advance
  inputs := s.inputs.tail
  tick := s.tick + 1

/-- The time the coming step shows on `now_ms`. -/
def State.nowMs (s : State) : BitVec Config.timeW := s.now + s.coming.advance

/-- R121: in RECV, the window had not expired at the time last shown. -/
def State.WindowOpen (s : State) : Prop := s.regs.st = .recv → (s.now - s.regs.tStart).toNat ≤ Config.timeoutMs

/-- R124: the bytes taken, less one leading zero. -/
def afterGuard (taken : List Byte) : List Byte :=
  match taken with
  | [] => []
  | b :: bs => if b = 0x00 then bs else b :: bs

/-- R127 to R130: the outcome and data readResponse gives for the bytes collected, in the order of R206. -/
def judge (expTag : Byte) (collected : List Byte) : Status × BitVec 32 :=
  match collected with
  | [] => (.timeout, 0)
  | [tag, d0, d1, d2, d3, k] =>
    if cs8 [tag, d0, d1, d2, d3] ≠ k then (.checksum, 0)
    else if tag ≠ expTag then (.tagMismatch, 0)
    else (.ok, word32 d0 d1 d2 d3)
  | _ => (.framing, 0)

/-- A run inside RECV from `s0`, without reset, and the bytes it takes from the transport, oldest first (R123, R124). -/
inductive ReceivePath (s0 : State) : List Byte → State → Prop where
  | start : s0.regs.st = .recv → ReceivePath s0 [] s0
  | wait {taken : List Byte} {s t : State} : ReceivePath s0 taken s → s.coming.rst = false →
      (s.outs s.coming).rxPop = false → step s = .next t → t.regs.st = .recv → ReceivePath s0 taken t
  | take {taken : List Byte} {s t : State} {b : Byte} {rest : List Byte} : ReceivePath s0 taken s →
      s.coming.rst = false → (s.outs s.coming).rxPop = true → s.queue s.coming = b :: rest →
      step s = .next t → t.regs.st = .recv → ReceivePath s0 (taken ++ [b]) t

/-- The bytes that arrive over a list of environment steps. -/
def arrivalsOf {w : Nat} (es : List (EnvStep w)) : List Byte := es.flatMap EnvStep.arrivals

/-- How far the clock moves over a list of environment steps, without wrapping. -/
def advanceOf {w : Nat} (es : List (EnvStep w)) : Nat := (es.map (fun e => e.advance.toNat)).sum

/-- The requester presents a request in the step that stands for instruction `i`. For 0xB0 to 0xB4 the payload port may carry any
byte (R72). -/
def EnvStep.presents {w : Nat} (e : EnvStep w) (i : Instr) : Prop :=
  e.reqValid = true ∧ Request.decode ⟨e.reqCmd, e.reqAddr, e.reqPayload⟩ = i

/-- The bytes held when the steps `es` begin come in time for `n` of them to be taken by the end of `es`, one a step: with `j` steps
left, all but `j` of the `n` have arrived. -/
def comeInTime {w : Nat} (n : Nat) (held : List Byte) (es : List (EnvStep w)) : Prop :=
  n ≤ es.length ∧ ∀ j < n, n - j ≤ (held ++ arrivalsOf (es.take (es.length - j))).length

end Sys2Proof.Machine
end

