-- ==== Sys2Proof/Certificates/Slice0/Obligations.lean ====
section
/-! DEFINITION. The statements for the provers, in the order of the spec's files: encoding, checksum, requests, sending, receiving,
checking, reset, invariants, whole operations, values. -/

open Sys2Proof Sys2Proof.Machine

/-! ### Encoding (30_encoding.md) -/

/-- Section 5 (R81): the request a well-formed instruction presents decodes to that instruction. Rests on log 13. -/
def Obligations.RequestDecodesToItsInstruction : Prop :=
  ∀ i : Instr, i.wellFormed = true → i.request.decode = i

/-- Sections 1 and 5: for each of the six operations, every address and every threshold, the command frame decodes back. -/
def Obligations.FrameDecodesToItsInstruction : Prop :=
  ∀ i : Instr, i.isOperation = true → decodeFrame i.encode = .ok i

/-- Section 1: whatever the frame decoder accepts is the encoding of what it answers; nothing else is a command frame. -/
def Obligations.AcceptedFrameIsTheEncoding : Prop :=
  ∀ (bytes : List Byte) (i : Instr), decodeFrame bytes = .ok i → i.isOperation = true ∧ i.encode = bytes

/-- 95_test_vectors.md section 2.2, V-EN1 to V-EN6: the frames written out from the spec, and a reserved command byte of
30_encoding.md section 3 with every other byte zero. The four clauses about `decodeTableWord` rest on how the model lays a table word
out (log 13): its byte order, its checksum byte that is not read, and the zeros above its bits. -/
def Obligations.WordsOfTheSpecDecode : Prop :=
  decodeFrame [0xB0, 0xC0, 0xA8, 0x01, 0x01, 0x00, 0x1A] = .ok (.rdv 0xC0A80101) ∧
  decodeTableWord 56 0x1B000101A8C0B1 = some (.rdi 0xC0A80101) ∧
  decodeTableWord 56 0x1C000101A8C0B2 = some (.rdp 0xC0A80101) ∧
  decodeFrame [0xB3, 0xC0, 0xA8, 0x01, 0x01, 0x00, 0x1D] = .ok (.rde 0xC0A80101) ∧
  decodeTableWord 56 0x1E000101A8C0B4 = some (.setaddr 0xC0A80101) ∧
  decodeFrame [0xB5, 0xC0, 0xA8, 0x01, 0x01, 0x14, 0x33] = .ok (.setalarm 0xC0A80101 0x14) ∧
  decodeTableWord 8 0xB6 = some (.cmdReserved 0xB6 0 0)

/-- Section 3 (R76 to R78): the legal command bytes are 0xB0 to 0xB5, and the tag is the command byte less 0x10, which is the
command byte with bit 4 cleared. -/
def Obligations.LegalCommandBytesAndTheirTags : Prop :=
  ∀ c : Byte,
    ((Operation.ofByte? c).isSome = true ↔ 0xB0 ≤ c.toNat ∧ c.toNat ≤ 0xB5) ∧
    ∀ op, Operation.ofByte? c = some op → op.opcode = c ∧ op.tag = c - 0x10 ∧ op.tag = c &&& 0xEF

/-! ### Checksum (40_checksum_encode_send.md section 1) -/

/-- R101: the source's 16-bit accumulation gives the same byte. -/
def Obligations.SixteenBitAccumulationGivesTheChecksum : Prop :=
  ∀ bs : List Byte, cs8Accumulated16 bs = cs8 bs

/-- R102 items 1 and 2: the checksum does not see the order of its bytes, and moves by what one byte moves by. -/
def Obligations.ChecksumIsCommutativeAndAdditive : Prop :=
  (∀ s t : List Byte, s.Perm t → cs8 s = cs8 t) ∧
  ∀ (s t : List Byte) (b k : Byte), cs8 (s ++ (b + k) :: t) = cs8 (s ++ b :: t) + k

/-- R102 item 3 (C5): one flipped bit anywhere in a checksum-valid response frame is detected. -/
def Obligations.SingleBitErrorsAreDetected : Prop :=
  ∀ (f : Vector Byte 6) (i : Fin 6) (j : Fin 8), cs8 (f.toList.take 5) = f[5] →
    cs8 ((f.set i (f[i] ^^^ (1#8 <<< j.val))).toList.take 5) ≠ (f.set i (f[i] ^^^ (1#8 <<< j.val)))[5]

/-! ### Requests (40_checksum_encode_send.md section 3) -/

/-- R104, for each row of the table of R76, with the frame of R70 and R103 and the payload of R72 written out. -/
def Obligations.LegalRequestIsLatched : Prop :=
  ∀ (s : State) (c tag : Byte),
    (c, tag) ∈ [((0xB0 : Byte), (0xA0 : Byte)), (0xB1, 0xA1), (0xB2, 0xA2), (0xB3, 0xA3), (0xB4, 0xA4), (0xB5, 0xA5)] →
    s.regs.st = .idle → s.coming.rst = false → s.coming.reqValid = true → s.coming.reqCmd = c →
    (s.outs s.coming).reqReady = true ∧
    step s = .next (s.advanced
      (s.regs.latched (wireFrame c s.coming.reqAddr (if c = 0xB5 then s.coming.reqPayload else 0x00)) tag)
      (s.rxq ++ s.coming.arrivals) s.txq)

/-- 42_operations.md R151 to R154: each read operation presented in IDLE is accepted: its frame with a zero payload and its tag are
latched, and nothing else of the machine changes. -/
def Obligations.ReadRequestsComplete : Prop :=
  ∀ (s : State) (a : Addr), s.regs.st = .idle → s.coming.rst = false →
    exec (.rdv a) s = .next (s.advanced (s.regs.latched (wireFrame 0xB0 a 0) 0xA0) (s.rxq ++ s.coming.arrivals) s.txq) ∧
    exec (.rdi a) s = .next (s.advanced (s.regs.latched (wireFrame 0xB1 a 0) 0xA1) (s.rxq ++ s.coming.arrivals) s.txq) ∧
    exec (.rdp a) s = .next (s.advanced (s.regs.latched (wireFrame 0xB2 a 0) 0xA2) (s.rxq ++ s.coming.arrivals) s.txq) ∧
    exec (.rde a) s = .next (s.advanced (s.regs.latched (wireFrame 0xB3 a 0) 0xA3) (s.rxq ++ s.coming.arrivals) s.txq)

/-- 42_operations.md R155, R156: each set operation presented in IDLE is accepted; only SETALARM sends its payload. -/
def Obligations.SetRequestsComplete : Prop :=
  ∀ (s : State) (a : Addr) (p : Byte), s.regs.st = .idle → s.coming.rst = false →
    exec (.setaddr a) s = .next (s.advanced (s.regs.latched (wireFrame 0xB4 a 0) 0xA4) (s.rxq ++ s.coming.arrivals) s.txq) ∧
    exec (.setalarm a p) s = .next (s.advanced (s.regs.latched (wireFrame 0xB5 a p) 0xA5) (s.rxq ++ s.coming.arrivals) s.txq)

/-- R105: a reserved command byte is refused in the step, with BADOP; nothing is sent or taken and no other register changes. -/
def Obligations.ReservedRequestReportsBadOp : Prop :=
  ∀ (s : State) (c : Byte) (a : Addr) (p : Byte), s.regs.st = .idle → s.coming.rst = false →
    (Instr.cmdReserved c a p).wellFormed = true →
    exec (.cmdReserved c a p) s = .next (s.advanced { s.regs with resData := 0, status := .badOp, done := true }
      (s.rxq ++ s.coming.arrivals) s.txq) ∧
    (s.outs (s.coming.withRequest ⟨c, a, p⟩)).reqReady = true ∧
    (s.outs (s.coming.withRequest ⟨c, a, p⟩)).txValid = false ∧
    (s.outs (s.coming.withRequest ⟨c, a, p⟩)).rxPop = false

/-- R106: while the block is busy, in a reset step, and without `req_valid`, no request is accepted. -/
def Obligations.RequestIsNotAcceptedOtherwise : Prop :=
  (∀ (s : State) (i : Instr), s.regs.st ≠ .idle ∨ s.coming.rst = true →
    (s.outs s.coming).reqReady = false ∧ exec i s = step s ∧ ∀ q : Request, s.edge (s.coming.withRequest q) = step s) ∧
  ∀ s : State, s.regs.st = .idle → s.coming.rst = false → s.coming.reqValid = false →
    step s = .next (s.advanced s.regs (s.rxq ++ s.coming.arrivals) s.txq)

/-! ### Sending (40_checksum_encode_send.md section 4) -/

/-- R107, R108: a SEND step offers the byte at `tx_idx`; if the transport takes it the index moves, and the last byte opens the
response window; if not, no register changes. (`tx_idx = 7` is the subject of `FaultsAreExactlyThese`.) -/
def Obligations.SendStepMovesOneByte : Prop :=
  ∀ (s : State) (h : s.regs.txIdx.toNat < 7), s.regs.st = .send → s.coming.rst = false →
    (s.outs s.coming).txValid = true ∧ (s.outs s.coming).txData = s.regs.cmdBuf[s.regs.txIdx.toNat] ∧
    (s.outs s.coming).rxPop = false ∧
    step s =
      if s.coming.txReady = true then
        .next (s.advanced
          (if s.regs.txIdx = 6 then { s.regs with txIdx := 7, st := .recv, tStart := s.nowMs }
           else { s.regs with txIdx := s.regs.txIdx + 1 })
          (s.rxq ++ s.coming.arrivals) (s.txq ++ [s.regs.cmdBuf[s.regs.txIdx.toNat]]))
      else .next (s.advanced s.regs (s.rxq ++ s.coming.arrivals) s.txq)

/-- R110: outside SEND and in a reset step the transmit outputs are quiet. -/
def Obligations.TransmitOutputsAreQuietOutsideSend : Prop :=
  ∀ (s : State) (e : EnvStep Config.timeW), s.regs.st ≠ .send ∨ e.rst = true →
    (s.outs e).txValid = false ∧ (s.outs e).txData = 0x00

/-- R109: nothing but the byte of the command frame at `tx_idx` is ever transmitted, and only in SEND. -/
def Obligations.OnlyTheCommandFrameIsTransmitted : Prop :=
  ∀ s t : State, step s = .next t →
    t.txq = s.txq ∨
    (s.regs.st = .send ∧ s.coming.rst = false ∧ s.coming.txReady = true ∧
      ∃ h : s.regs.txIdx.toNat < 7, t.txq = s.txq ++ [s.regs.cmdBuf[s.regs.txIdx.toNat]])

/-! ### Receiving (41_receive_check.md section 2) -/

/-- R122, with the condition of R121 and the elapsed time of R120: the loop exits, strictly after TIMEOUT_MS, and takes no byte. -/
def Obligations.RecvExitsWhenFullOrLate : Prop :=
  ∀ s : State, s.regs.st = .recv → s.coming.rst = false →
    (s.regs.rxCnt = 6 ∨ Config.timeoutMs < (s.now + s.coming.advance - s.regs.tStart).toNat) →
    (s.outs s.coming).rxPop = false ∧
    step s = .next (s.advanced { s.regs with st := .check } (s.rxq ++ s.coming.arrivals) s.txq)

/-- R123: an iteration with no byte changes no register. -/
def Obligations.RecvWaitsWithoutAByte : Prop :=
  ∀ s : State, s.regs.st = .recv → s.coming.rst = false → s.regs.rxCnt ≠ 6 →
    (s.now + s.coming.advance - s.regs.tStart).toNat ≤ Config.timeoutMs → s.rxq ++ s.coming.arrivals = [] →
    (s.outs s.coming).rxPop = false ∧ step s = .next (s.advanced s.regs [] s.txq)

/-- R124, R125: an iteration with a byte takes it, also at `elapsed = TIMEOUT_MS`; a zero that is the first byte taken is discarded,
and every other byte is stored at `rx_cnt`. (Storing at `rx_cnt = 7` is the subject of `FaultsAreExactlyThese`.) That a byte which arrives in the step is taken in
that step is the model's reading (log 6). -/
def Obligations.RecvTakesOneByte : Prop :=
  ∀ (s : State) (b : Byte) (rest : List Byte), s.regs.st = .recv → s.coming.rst = false → s.regs.rxCnt ≠ 6 →
    (s.now + s.coming.advance - s.regs.tStart).toNat ≤ Config.timeoutMs → s.rxq ++ s.coming.arrivals = b :: rest →
    (s.outs s.coming).rxPop = true ∧
    (s.regs.leadGuard = true ∧ b = 0x00 → step s = .next (s.advanced { s.regs with leadGuard := false } rest s.txq)) ∧
    ∀ h : s.regs.rxCnt.toNat < 6, ¬(s.regs.leadGuard = true ∧ b = 0x00) →
      step s = .next (s.advanced
        { s.regs with rxBuf := s.regs.rxBuf.set s.regs.rxCnt.toNat b h, rxCnt := s.regs.rxCnt + 1, leadGuard := false }
        rest s.txq)

/-- R121: every step that leaves the block in RECV, from whatever state, leaves the window open at the time it showed, so that an
expired window is never waited in; the state after reset has it too. -/
def Obligations.StepLeavesTheWindowOpen : Prop :=
  State.reset.WindowOpen ∧ ∀ s t : State, step s = .next t → t.WindowOpen

/-- R126: the one condition under which a byte is consumed. That `rx_avail` counts the bytes which arrive in the step is the model's
reading (log 6). -/
def Obligations.ByteIsConsumedOnlyInAnOpenWindow : Prop :=
  ∀ (s : State) (e : EnvStep Config.timeW), (s.outs e).rxPop = true ↔
    s.regs.st = .recv ∧ e.rst = false ∧ s.rxq ++ e.arrivals ≠ [] ∧ s.regs.rxCnt ≠ 6 ∧
      (s.now + e.advance - s.regs.tStart).toNat ≤ Config.timeoutMs

/-- 20_memory.md R53: the transport's queue is a FIFO of which a step removes the head or nothing; the ports show its head. That an
arriving byte is seen in the same step rests on log 6. -/
def Obligations.ReceiveStreamIsAFifo : Prop :=
  ∀ s : State,
    ((s.pins s.coming).rxAvail = true ↔ s.rxq ++ s.coming.arrivals ≠ []) ∧
    (∀ (b : Byte) (rest : List Byte), s.rxq ++ s.coming.arrivals = b :: rest → (s.pins s.coming).rxData = b) ∧
    ((s.outs s.coming).rxPop = true → (s.pins s.coming).rxAvail = true) ∧
    ∀ t : State, step s = .next t →
      ((s.outs s.coming).rxPop = true → ∃ b, s.rxq ++ s.coming.arrivals = b :: t.rxq) ∧
      ((s.outs s.coming).rxPop = false → t.rxq = s.rxq ++ s.coming.arrivals)

/-! ### Checking (41_receive_check.md section 3) -/

/-- R127: a short frame gives TIMEOUT with no byte collected and FRAMING with 1 to 5, and no data. -/
def Obligations.ShortFrameTimesOutOrFrames : Prop :=
  ∀ s : State, s.regs.st = .check → s.coming.rst = false → s.regs.rxCnt.toNat < 6 →
    step s = .next (s.advanced
      { s.regs with resData := 0, status := if s.regs.rxCnt = 0 then .timeout else .framing, done := true, st := .idle }
      (s.rxq ++ s.coming.arrivals) s.txq)

/-- R128: six bytes whose sixth is not the sum of the first five give CHECKSUM, whatever the tag. -/
def Obligations.WrongSumGivesChecksumError : Prop :=
  ∀ s : State, s.regs.st = .check → s.coming.rst = false → s.regs.rxCnt = 6 →
    cs8 [s.regs.rxBuf[0], s.regs.rxBuf[1], s.regs.rxBuf[2], s.regs.rxBuf[3], s.regs.rxBuf[4]] ≠ s.regs.rxBuf[5] →
    step s = .next (s.advanced { s.regs with resData := 0, status := .checksum, done := true, st := .idle }
      (s.rxq ++ s.coming.arrivals) s.txq)

/-- R129: a checksum-valid frame with another tag gives TAGMISMATCH. -/
def Obligations.WrongTagGivesTagMismatch : Prop :=
  ∀ s : State, s.regs.st = .check → s.coming.rst = false → s.regs.rxCnt = 6 →
    cs8 [s.regs.rxBuf[0], s.regs.rxBuf[1], s.regs.rxBuf[2], s.regs.rxBuf[3], s.regs.rxBuf[4]] = s.regs.rxBuf[5] →
    s.regs.rxBuf[0] ≠ s.regs.expTag →
    step s = .next (s.advanced { s.regs with resData := 0, status := .tagMismatch, done := true, st := .idle }
      (s.rxq ++ s.coming.arrivals) s.txq)

/-- R130: a checksum-valid frame with the expected tag gives OK and its four data bytes. -/
def Obligations.ValidFrameGivesItsData : Prop :=
  ∀ s : State, s.regs.st = .check → s.coming.rst = false → s.regs.rxCnt = 6 →
    cs8 [s.regs.rxBuf[0], s.regs.rxBuf[1], s.regs.rxBuf[2], s.regs.rxBuf[3], s.regs.rxBuf[4]] = s.regs.rxBuf[5] →
    s.regs.rxBuf[0] = s.regs.expTag →
    step s = .next (s.advanced
      { s.regs with resData := s.regs.rxBuf[1] ++ s.regs.rxBuf[2] ++ s.regs.rxBuf[3] ++ s.regs.rxBuf[4],
                    status := .ok, done := true, st := .idle }
      (s.rxq ++ s.coming.arrivals) s.txq)

/-- R131: CHECK lasts one step, sets `done`, returns to IDLE, and takes and sends nothing. -/
def Obligations.CheckEndsInOneStep : Prop :=
  ∀ s : State, s.regs.st = .check → s.coming.rst = false → s.regs.rxCnt.toNat ≤ 6 →
    ∃ t : State, step s = .next t ∧ t.regs.st = .idle ∧ t.regs.done = true ∧
      t.regs.status ≠ .none ∧ t.regs.status ≠ .badOp ∧ (t.regs.status ≠ .ok → t.regs.resData = 0) ∧
      t.txq = s.txq ∧ t.rxq = s.rxq ++ s.coming.arrivals

/-- R133, third property, with R206: six bytes that begin with 0x00 never give OK. -/
def Obligations.ZeroTagNeverSucceeds : Prop :=
  ∀ s : State, s.regs.Inv → s.regs.st = .check → s.coming.rst = false → s.regs.rxCnt = 6 → s.regs.rxBuf[0] = 0 →
    ∃ t : State, step s = .next t ∧ t.regs.resData = 0 ∧
      t.regs.status =
        if cs8 [0, s.regs.rxBuf[1], s.regs.rxBuf[2], s.regs.rxBuf[3], s.regs.rxBuf[4]] = s.regs.rxBuf[5]
        then .tagMismatch else .checksum

/-! ### Reset (70_reset_and_hazards.md section 1) -/

/-- R230, with the values of 10_state.md R36: a reset step, in whatever state, and with whatever request on the ports. The transport's
queues keep their bytes (R231). That the step still queues its arrivals and moves the clock is the model's reading (log 6). -/
def Obligations.ResetOverridesEveryRule : Prop :=
  ∀ s : State, s.coming.rst = true →
    step s = .next (s.advanced
      { st := .idle, cmdBuf := #v[0, 0, 0, 0, 0, 0, 0], txIdx := 0, expTag := 0, rxBuf := #v[0, 0, 0, 0, 0, 0],
        rxCnt := 0, leadGuard := false, tStart := 0, status := .none, done := false, resData := 0 }
      (s.rxq ++ s.coming.arrivals) s.txq) ∧
    (∀ i : Instr, exec i s = step s) ∧
    (s.outs s.coming).reqReady = false ∧ (s.outs s.coming).txValid = false ∧ (s.outs s.coming).txData = 0x00 ∧
    (s.outs s.coming).rxPop = false ∧ ((s.outs s.coming).busy = true ↔ s.regs.st ≠ .idle) ∧
    (s.outs s.coming).done = s.regs.done ∧ (s.outs s.coming).status = s.regs.status ∧
    (s.outs s.coming).resData = s.regs.resData

/-- R232: what the outputs show right after reset, whatever the environment does in that step. -/
def Obligations.OutputsAfterReset : Prop :=
  ∀ e : EnvStep Config.timeW,
    (State.reset.outs e).reqReady = (!e.rst) ∧ (State.reset.outs e).busy = false ∧ (State.reset.outs e).done = false ∧
    (State.reset.outs e).status = .none ∧ (State.reset.outs e).resData = 0 ∧ (State.reset.outs e).txValid = false ∧
    (State.reset.outs e).rxPop = false

/-! ### The step and its invariants -/

/-- A step that fetches an instruction runs it: a request on the ports in IDLE runs as the instruction it decodes to, and a table word
placed by `withFetchWord` (log 3) runs in the very next step. -/
def Obligations.StepRunsTheFetchedInstruction : Prop :=
  (∀ s : State, s.regs.st = .idle → s.coming.rst = false → s.coming.reqValid = true →
    step s = exec (Request.decode ⟨s.coming.reqCmd, s.coming.reqAddr, s.coming.reqPayload⟩) s) ∧
  ∀ (s : State) (nbits w : Nat) (i : Instr), decodeTableWord nbits w = some i →
    step (s.withFetchWord nbits w) = exec i (s.withFetchWord nbits w)

/-- 00_scope.md R7: running the fetched instruction is the same as one clock edge of the block on its raw ports, so nothing is lost or
added by decoding the request. -/
def Obligations.StepIsOneClockEdge : Prop :=
  ∀ s : State, step s = s.edge s.coming

/-- 10_state.md R35 and R109: the state after reset meets the invariants. -/
def Obligations.ResetStateMeetsTheInvariants : Prop :=
  State.reset.regs.Inv ∧ State.reset.SentInv

/-- 10_state.md R35: every step, from every state that meets them, keeps the eight invariants of the registers. -/
def Obligations.StepKeepsTheRegisterInvariants : Prop :=
  ∀ s t : State, s.regs.Inv → step s = .next t → t.regs.Inv

/-- R109: every step keeps what has been sent a prefix of the command frame, and the whole frame once SEND is left. -/
def Obligations.StepKeepsTheSentFrameInvariant : Prop :=
  ∀ s t : State, s.regs.Inv → s.SentInv → step s = .next t → t.SentInv

/-- 20_memory.md R50: from a state that meets R35 no index leaves a buffer, so every step answers a next state, and so does every
instruction. -/
def Obligations.NoStepStopsUnderTheInvariants : Prop :=
  ∀ s : State, s.regs.Inv → (∃ t, step s = .next t) ∧ ∀ i : Instr, ∃ t, exec i s = .next t

/-- The model's choice (log 9) for the states R35 rules out: exactly where a step faults, and that none ever refuses. -/
def Obligations.FaultsAreExactlyThese : Prop :=
  ∀ s : State,
    (∀ f : Fault, step s = .fault f ↔
      s.coming.rst = false ∧
      ((f = .cmdIndexOutside ∧ s.regs.st = .send ∧ s.regs.txIdx = 7) ∨
       (f = .rxIndexOutside ∧ s.regs.st = .recv ∧ s.regs.rxCnt = 7 ∧
          (s.now + s.coming.advance - s.regs.tStart).toNat ≤ Config.timeoutMs ∧
          ∃ b rest, s.rxq ++ s.coming.arrivals = b :: rest ∧ ¬(s.regs.leadGuard = true ∧ b = 0x00)) ∨
       (f = .rxCountOutside ∧ s.regs.st = .check ∧ s.regs.rxCnt = 7))) ∧
    (∀ x : Refusal, step s ≠ .refused x) ∧
    ∀ (i : Instr) (x : Refusal), exec i s ≠ .refused x

/-- 10_state.md R22: the only transitions of the control state, each with the condition under which its rule makes it. -/
def Obligations.ControlStateTransitions : Prop :=
  ∀ s t : State, step s = .next t →
    t.regs.st = s.regs.st ∨
    (s.coming.rst = true ∧ t.regs.st = .idle) ∨
    (s.regs.st = .idle ∧ t.regs.st = .send ∧ s.coming.reqValid = true ∧ 0xB0 ≤ s.coming.reqCmd.toNat ∧
      s.coming.reqCmd.toNat ≤ 0xB5) ∨
    (s.regs.st = .send ∧ t.regs.st = .recv ∧ s.regs.txIdx = 6 ∧ s.coming.txReady = true) ∨
    (s.regs.st = .recv ∧ t.regs.st = .check ∧
      (s.regs.rxCnt = 6 ∨ Config.timeoutMs < (s.now + s.coming.advance - s.regs.tStart).toNat)) ∨
    (s.regs.st = .check ∧ t.regs.st = .idle ∧ t.regs.done = true)

/-- 20_memory.md R59, 10_state.md R30: the outcome stays as it is but for an accepted request, a CHECK step and reset. -/
def Obligations.OutcomeIsStableUntilTheNextRequest : Prop :=
  ∀ s t : State, step s = .next t → s.coming.rst = false → s.regs.st ≠ .check →
    (s.regs.st = .idle → s.coming.reqValid = false) →
    t.regs.status = s.regs.status ∧ t.regs.done = s.regs.done ∧ t.regs.resData = s.regs.resData

/-- 10_state.md R20 and 93_implementation_defined.md section 1, for every TIME_W and TIMEOUT_MS: `rx_data` has no effect while
`rx_avail = 0`, the request operands have none while `req_valid = 0`. -/
def Obligations.MeaninglessInputsHaveNoEffect : Prop :=
  ∀ (w T : Nat) (r : Regs w) (p : Pins w) (b c d : Byte) (a : Addr) (k : Nat),
    (p.rxAvail = false → r.next T { p with rxData := b } = r.next T p ∧
      r.outs T { p with rxData := b } k = r.outs T p k) ∧
    (p.reqValid = false → r.next T { p with reqCmd := c, reqAddr := a, reqPayload := d } = r.next T p ∧
      r.outs T { p with reqCmd := c, reqAddr := a, reqPayload := d } k = r.outs T p k)

/-- 10_state.md R26, for every TIME_W and TIMEOUT_MS: the stale entries of `rx_buf` are never read. -/
def Obligations.StaleReceiveEntriesAreNeverRead : Prop :=
  ∀ (w T : Nat) (r r' : Regs w) (p : Pins w) (k : Nat), r.agree r' →
    r.outs T p k = r'.outs T p k ∧
    (∀ f, r.next T p = .error f ↔ r'.next T p = .error f) ∧
    ∀ t, r.next T p = .ok t → ∃ t', r'.next T p = .ok t' ∧ t.agree t'

/-! ### Runs of several steps -/

/-- R107 to R109, R242: with `tx_ready = 1` the seven bytes go out in seven steps and the window opens at the time of the last. -/
def Obligations.SevenReadyStepsSendTheFrame : Prop :=
  ∀ (s : State) (es rest : List (EnvStep Config.timeW)), s.regs.st = .send → s.regs.txIdx = 0 → s.inputs = es ++ rest → es.length = 7 →
    (∀ e ∈ es, e.rst = false ∧ e.txReady = true) →
    ∃ t : State, Machine.run 7 s = .next t ∧
      t.regs = { s.regs with txIdx := 7, st := .recv, tStart := t.now } ∧
      t.txq = s.txq ++ s.regs.cmdBuf.toList ∧ t.rxq = s.rxq ++ arrivalsOf es ∧ t.inputs = rest

/-- 41_receive_check.md, the headline: from the start of the window, whatever the transport delivers and whenever, the block collects
exactly the bytes it took less one leading zero, and the outcome it reports is readResponse's for them. -/
def Obligations.ReceptionIsReadResponse : Prop :=
  ∀ (s0 s : State) (taken : List Byte), s0.regs.rxCnt = 0 → s0.regs.leadGuard = true → ReceivePath s0 taken s →
    s.regs.rxBuf.toList.take s.regs.rxCnt.toNat = afterGuard taken ∧
    (s.regs.leadGuard = true ↔ taken = []) ∧
    ∀ t u : State, step s = .next t → t.regs.st = .check → t.coming.rst = false → step t = .next u →
      (u.regs.status, u.regs.resData) = judge s0.regs.expTag (afterGuard taken)

/-- 42_operations.md R150 to R156, 70_reset_and_hazards.md R242, with R133's first property: each operation, presented in IDLE with
whatever on the payload port it does not read, sent in seven ready steps, and answered by a valid frame of its tag, possibly after one
leading zero, ends with OK and the frame's data, having sent exactly its command frame and taken exactly the response. The response may
be in the transport before the window opens or arrive in it, with steps of waiting anywhere, as long as its bytes can be taken one a
step by the last step `takes` of the window. With no waiting that is 16 steps (17 with the zero). That a byte which arrives in a step
can be taken in that step is the model's reading (log 6). -/
def Obligations.OperationAnsweredInTimeSucceeds : Prop :=
  ∀ (i : Instr) (op : Operation) (s : State) (accept : EnvStep Config.timeW) (sends takes : List (EnvStep Config.timeW))
    (exit check : EnvStep Config.timeW) (rest : List (EnvStep Config.timeW)) (lead : List Byte) (d0 d1 d2 d3 : Byte)
    (later : List Byte),
    i.isOperation = true → Operation.ofByte? i.request.cmd = some op →
    s.regs.st = .idle → accept.presents i → lead = [] ∨ lead = [0x00] →
    s.inputs = accept :: (sends ++ (takes ++ exit :: check :: rest)) → sends.length = 7 →
    accept.rst = false → (∀ e ∈ sends, e.rst = false ∧ e.txReady = true) → (∀ e ∈ takes, e.rst = false) →
    exit.rst = false → check.rst = false →
    s.rxq ++ accept.arrivals ++ arrivalsOf sends ++ arrivalsOf takes =
      lead ++ [op.tag, d0, d1, d2, d3, cs8 [op.tag, d0, d1, d2, d3]] ++ later →
    comeInTime (6 + lead.length) (s.rxq ++ accept.arrivals ++ arrivalsOf sends) takes →
    advanceOf takes ≤ Config.timeoutMs →
    ∃ (n : Nat) (t : State), 16 + lead.length ≤ n ∧ n ≤ 10 + takes.length ∧ Machine.run n s = .next t ∧
      t.regs.st = .idle ∧ t.regs.done = true ∧ t.regs.status = .ok ∧ t.regs.resData = word32 d0 d1 d2 d3 ∧
      t.regs.cmdBuf[0] = op.opcode ∧ t.txq = s.txq ++ i.encode ∧
      s.rxq ++ arrivalsOf (s.inputs.take n) =
        lead ++ [op.tag, d0, d1, d2, d3, cs8 [op.tag, d0, d1, d2, d3]] ++ t.rxq ∧
      t.inputs = s.inputs.drop n

/-- 41_receive_check.md R134, 70_reset_and_hazards.md R242: at one millisecond a step, the window closes by step TIMEOUT_MS + 1,
whatever arrives. -/
def Obligations.ReceptionEndsWithinTheWindow : Prop :=
  ∀ (s : State) (es rest : List (EnvStep Config.timeW)), s.regs.Inv → s.regs.st = .recv → s.now = s.regs.tStart →
    s.inputs = es ++ rest → es.length = Config.timeoutMs + 1 → (∀ e ∈ es, e.rst = false ∧ e.advance = 1) →
    ∃ (k : Nat) (t : State), k ≤ Config.timeoutMs + 1 ∧ Machine.run k s = .next t ∧ t.regs.st = .check

/-- 70_reset_and_hazards.md R238: while the transport is not ready, however long, the block stays in SEND and nothing changes. -/
def Obligations.SendWaitsForTheTransportForever : Prop :=
  ∀ (s : State) (es rest : List (EnvStep Config.timeW)), s.regs.st = .send → s.regs.txIdx.toNat < 7 → s.inputs = es ++ rest →
    (∀ e ∈ es, e.rst = false ∧ e.txReady = false) →
    ∃ t : State, Machine.run es.length s = .next t ∧ t.regs = s.regs ∧ t.txq = s.txq ∧
      t.rxq = s.rxq ++ arrivalsOf es

/-- 70_reset_and_hazards.md R239: with a stopped clock and no byte, however long, the block stays in RECV and nothing changes. -/
def Obligations.RecvWaitsForAStoppedClockForever : Prop :=
  ∀ (s : State) (es rest : List (EnvStep Config.timeW)), s.regs.st = .recv → s.regs.rxCnt ≠ 6 → s.rxq = [] →
    (s.now - s.regs.tStart).toNat ≤ Config.timeoutMs → s.inputs = es ++ rest →
    (∀ e ∈ es, e.rst = false ∧ e.advance = 0 ∧ e.arrivals = []) →
    ∃ t : State, Machine.run es.length s = .next t ∧ t.regs = s.regs ∧ t.txq = s.txq ∧ t.rxq = []

/-- 20_memory.md R63: in the reference environment step `k` shows the time `t0 + k` modulo 2^TIME_W, the list of requests moves on by
one exactly in a step that finds the block in IDLE outside reset, and no received byte is lost or reordered. What stands on the ports
is the subject of `ReferenceEnvironmentDrivesThePorts`. -/
def Obligations.ReferenceEnvironmentKeepsTime : Prop :=
  ∀ (env env' : RefEnv) (s t : State), env.step s = .next (env', t) →
    t.now = BitVec.ofNat Config.timeW (env.t0 + env.k) ∧ env'.k = env.k + 1 ∧ env'.t0 = env.t0 ∧
    env'.requests = (if s.regs.st = .idle ∧ env.k ∉ env.resets then env.requests.tail else env.requests) ∧
    ∃ taken : List Byte, taken.length ≤ 1 ∧
      taken ++ (t.rxq ++ env'.rx.map RxByte.byte) = s.rxq ++ env.rx.map RxByte.byte

/-! ### Values (43_value_decode.md) and the read-only view (10_state.md R33) -/

/-- R171, R172: voltage and current from the data bytes, exact, for every value of `d2`; `d3` is ignored. -/
def Obligations.VoltageAndCurrentAreExact : Prop :=
  ∀ d0 d1 d2 d3 : Byte,
    decodeVoltage (word32 d0 d1 d2 d3) = ((10 * (256 * d0.toNat + d1.toNat) + d2.toNat : Nat) : Rat) / 10 ∧
    decivolts (word32 d0 d1 d2 d3) = 10 * (256 * d0.toNat + d1.toNat) + d2.toNat ∧
    decivolts (word32 d0 d1 d2 d3) ≤ 655605 ∧
    decodeCurrent (word32 d0 d1 d2 d3) = ((100 * (256 * d0.toNat + d1.toNat) + d2.toNat : Nat) : Rat) / 100 ∧
    centiamps (word32 d0 d1 d2 d3) = 100 * (256 * d0.toNat + d1.toNat) + d2.toNat ∧
    centiamps (word32 d0 d1 d2 d3) ≤ 6553755

/-- R173, R174: power from two bytes, energy from three, which is `res_data[31:8]`. -/
def Obligations.PowerAndEnergyAreExact : Prop :=
  ∀ d : BitVec 32,
    decodePower d = (d.extractLsb' 16 16).toNat ∧ decodePower d ≤ 65535 ∧
    decodeEnergy d = (d.extractLsb' 8 24).toNat ∧ decodeEnergy d ≤ 16777215

/-- R175, R177: a reading exists only for the operation in `cmd_buf[0]`; a read operation has one exactly on success, and the ack is
true exactly on OK. That the ack of an unfinished set operation reads false rests on log 11. -/
def Obligations.ReadingsExistOnlyOnSuccess : Prop :=
  ∀ (w : Nat) (r : Regs w),
    (∀ c : Byte, r.cmdBuf[0] = c → Operation.ofByte? c = none → r.reading? = none) ∧
    (r.cmdBuf[0] = 0xB4 ∨ r.cmdBuf[0] = 0xB5 → r.reading? = some (.ack (decide (r.status = .ok)))) ∧
    (¬(r.cmdBuf[0] = 0xB4 ∨ r.cmdBuf[0] = 0xB5) → ¬(r.status = .ok ∧ r.done = true) → r.reading? = none) ∧
    (r.status = .ok ∧ r.done = true →
      (r.cmdBuf[0] = 0xB0 → r.reading? = some (.voltage (decodeVoltage r.resData))) ∧
      (r.cmdBuf[0] = 0xB1 → r.reading? = some (.current (decodeCurrent r.resData))) ∧
      (r.cmdBuf[0] = 0xB2 → r.reading? = some (.power (decodePower r.resData))) ∧
      (r.cmdBuf[0] = 0xB3 → r.reading? = some (.energy (decodeEnergy r.resData))))

/-- R33, R200: the fields of the read-only STATUS register and the RESULT register. That a read of number 0 extends STATUS with zeros to
32 bits is the model's choice (log 16). -/
def Obligations.StatusViewShowsTheOutcome : Prop :=
  ∀ (w : Nat) (r : Regs w),
    r.statusView.extractLsb' 0 3 = r.status.code ∧
    (r.statusView.getLsbD 3 = true ↔ r.done = true) ∧
    (r.statusView.getLsbD 4 = true ↔ r.st ≠ .idle) ∧
    r.statusView.extractLsb' 5 3 = 0 ∧
    r.readView 0 = some (r.statusView.setWidth 32) ∧ r.readView 1 = some r.resData

/-! ### The parameters (00_scope.md R5) and the reference environment (20_memory.md R63), beyond the statements above -/

/-- R5: `step` and `exec` are the system's step and its accepting edge, which take TIME_W and TIMEOUT_MS, at the defaults 32 and 1000
(log 7). -/
def Obligations.StepIsTheSystemStepAtTheDefaults : Prop :=
  ∀ s : State,
    (∀ t : State, step s = .next t ↔ System.step s.toSystem (T := 1000) = .ok (t.toSystem : System 32)) ∧
    (∀ f : Fault, step s = .fault f ↔ System.step s.toSystem (T := 1000) = .error f) ∧
    ∀ (i : Instr) (t : State), exec i s = .next t ↔ System.present s.toSystem i.request (T := 1000) = .ok (t.toSystem : System 32)

/-- R5: TIMEOUT_MS is below 2^TIME_W - 1 exactly when the exit condition of R121 can become true for a short frame, for every TIME_W
and TIMEOUT_MS; the defaults meet it. -/
def Obligations.WindowCanExpireExactlyUnderTheBound : Prop :=
  Config.TimeoutFits Config.timeW Config.timeoutMs ∧
  ∀ (w T : Nat) (r : Regs w), r.rxCnt ≠ 6 → ((∃ now : BitVec w, r.exits T now = true) ↔ Config.TimeoutFits w T)

/-- R7, for every TIME_W and TIMEOUT_MS: a step of the system is one clock edge of the block on its raw ports. -/
def Obligations.SystemStepIsOneClockEdge : Prop :=
  ∀ (w T : Nat) (s : System w), s.step T = s.edge s.coming T

/-- R35, for every TIME_W and TIMEOUT_MS: every step of the system keeps the eight invariants of the registers, and from a state that
meets them every step answers. -/
def Obligations.SystemStepKeepsTheRegisterInvariants : Prop :=
  ∀ (w T : Nat) (s : System w), s.regs.Inv → ∃ t : System w, s.step T = .ok t ∧ t.regs.Inv

/-- 41_receive_check.md R134 under the clock's duty of 70_reset_and_hazards.md R234, for every TIME_W and TIMEOUT_MS: once the clock has
moved past TIMEOUT_MS, by whatever steps and without wrapping past the start of the window, RECV has ended, whatever arrives. -/
def Obligations.ReceptionEndsOnceTheClockAdvances : Prop :=
  ∀ (w T : Nat) (s : System w) (es rest : List (EnvStep w)), s.regs.Inv → s.regs.st = .recv → s.inputs = es ++ rest →
    es ≠ [] → (∀ e ∈ es, e.rst = false) → T < (s.now - s.regs.tStart).toNat + advanceOf es →
    (s.now - s.regs.tStart).toNat + advanceOf es < 2 ^ w →
    ∃ (k : Nat) (t : System w), k ≤ es.length ∧ s.run k T = .ok t ∧ t.regs.st = .check

/-- 20_memory.md R63, for every TIME_W: what the reference environment puts on the ports in step `k`, and what it takes back from RXQ.
The head of the request list stands on the ports exactly when `req_ready = 1`; with nothing left over in the transport, a byte is
available exactly when RXQ's head has `arrival_ms <= now_ms`, and `rx_pop` removes it. That a vector may hold a byte back until a step
(`fromStep`, 0 otherwise) is the model's reading of V-RC14 (log 14). -/
def Obligations.ReferenceEnvironmentDrivesThePorts : Prop :=
  (∀ (w : Nat) (env : RefEnv) (s : System w),
    ((s.pins (env.drive s)).rst = true ↔ env.k ∈ env.resets) ∧
    ((s.pins (env.drive s)).txReady = true ↔ env.k ∉ env.txHeld) ∧
    (s.pins (env.drive s)).nowMs = BitVec.ofNat w (env.t0 + env.k) ∧
    ((s.pins (env.drive s)).reqValid = true ↔ (s.outs (env.drive s)).reqReady = true ∧ env.requests ≠ []) ∧
    (∀ (q : Request) (qs : List Request), env.requests = q :: qs → (s.pins (env.drive s)).reqValid = true →
      (s.pins (env.drive s)).reqCmd = q.cmd ∧ (s.pins (env.drive s)).reqAddr = q.addr ∧
      (s.pins (env.drive s)).reqPayload = q.payload) ∧
    (s.rxq = [] → env.rx = [] → (s.pins (env.drive s)).rxAvail = false) ∧
    ∀ (x : RxByte) (xs : List RxByte), s.rxq = [] → env.rx = x :: xs →
      ((s.pins (env.drive s)).rxAvail = true ↔ x.arrivalMs ≤ (env.t0 + env.k) % 2 ^ w ∧ x.fromStep ≤ env.k) ∧
      ((s.pins (env.drive s)).rxAvail = true → (s.pins (env.drive s)).rxData = x.byte)) ∧
  ∀ (env env' : RefEnv) (s t : State), env.step s = .next (env', t) → s.rxq = [] →
    t.rxq = [] ∧ env'.rx = (if (s.outs (env.drive s.toSystem)).rxPop = true then env.rx.tail else env.rx)
end

