-- ==== Sys2Proof/Laws/State.lean ====
section
/-! SUPPORT. One small lemma per field for each update of the registers and of the environment's step, so that no later proof
unfolds a record update. -/

namespace Sys2Proof.Machine

variable {w : Nat} (r : Regs w)

@[simp] theorem Regs.report_st (o : Status) : (r.report o).st = r.st := rfl
@[simp] theorem Regs.report_cmdBuf (o : Status) : (r.report o).cmdBuf = r.cmdBuf := rfl
@[simp] theorem Regs.report_txIdx (o : Status) : (r.report o).txIdx = r.txIdx := rfl
@[simp] theorem Regs.report_expTag (o : Status) : (r.report o).expTag = r.expTag := rfl
@[simp] theorem Regs.report_rxBuf (o : Status) : (r.report o).rxBuf = r.rxBuf := rfl
@[simp] theorem Regs.report_rxCnt (o : Status) : (r.report o).rxCnt = r.rxCnt := rfl
@[simp] theorem Regs.report_leadGuard (o : Status) : (r.report o).leadGuard = r.leadGuard := rfl
@[simp] theorem Regs.report_tStart (o : Status) : (r.report o).tStart = r.tStart := rfl
@[simp] theorem Regs.report_status (o : Status) : (r.report o).status = o := rfl
@[simp] theorem Regs.report_done (o : Status) : (r.report o).done = true := rfl
@[simp] theorem Regs.report_resData (o : Status) : (r.report o).resData = r.resData := rfl

@[simp] theorem Regs.finish_st (o : Status) (d : BitVec 32) : (r.finish o d).st = .idle := rfl
@[simp] theorem Regs.finish_cmdBuf (o : Status) (d : BitVec 32) : (r.finish o d).cmdBuf = r.cmdBuf := rfl
@[simp] theorem Regs.finish_txIdx (o : Status) (d : BitVec 32) : (r.finish o d).txIdx = r.txIdx := rfl
@[simp] theorem Regs.finish_expTag (o : Status) (d : BitVec 32) : (r.finish o d).expTag = r.expTag := rfl
@[simp] theorem Regs.finish_rxBuf (o : Status) (d : BitVec 32) : (r.finish o d).rxBuf = r.rxBuf := rfl
@[simp] theorem Regs.finish_rxCnt (o : Status) (d : BitVec 32) : (r.finish o d).rxCnt = r.rxCnt := rfl
@[simp] theorem Regs.finish_leadGuard (o : Status) (d : BitVec 32) : (r.finish o d).leadGuard = r.leadGuard := rfl
@[simp] theorem Regs.finish_tStart (o : Status) (d : BitVec 32) : (r.finish o d).tStart = r.tStart := rfl
@[simp] theorem Regs.finish_status (o : Status) (d : BitVec 32) : (r.finish o d).status = o := rfl
@[simp] theorem Regs.finish_done (o : Status) (d : BitVec 32) : (r.finish o d).done = true := rfl
@[simp] theorem Regs.finish_resData (o : Status) (d : BitVec 32) : (r.finish o d).resData = d := rfl

@[simp] theorem Regs.refuse_st : (r.refuse).st = r.st := rfl
@[simp] theorem Regs.refuse_cmdBuf : (r.refuse).cmdBuf = r.cmdBuf := rfl
@[simp] theorem Regs.refuse_txIdx : (r.refuse).txIdx = r.txIdx := rfl
@[simp] theorem Regs.refuse_expTag : (r.refuse).expTag = r.expTag := rfl
@[simp] theorem Regs.refuse_rxBuf : (r.refuse).rxBuf = r.rxBuf := rfl
@[simp] theorem Regs.refuse_rxCnt : (r.refuse).rxCnt = r.rxCnt := rfl
@[simp] theorem Regs.refuse_leadGuard : (r.refuse).leadGuard = r.leadGuard := rfl
@[simp] theorem Regs.refuse_tStart : (r.refuse).tStart = r.tStart := rfl
@[simp] theorem Regs.refuse_status : (r.refuse).status = .badOp := rfl
@[simp] theorem Regs.refuse_done : (r.refuse).done = true := rfl
@[simp] theorem Regs.refuse_resData : (r.refuse).resData = 0 := rfl

@[simp] theorem Regs.accept_st (op : Operation) (a : Addr) (p : Byte) : (r.accept op a p).st = .send := rfl
@[simp] theorem Regs.accept_cmdBuf (op : Operation) (a : Addr) (p : Byte) : (r.accept op a p).cmdBuf = encodeCommand op.opcode a (op.payload p) := rfl
@[simp] theorem Regs.accept_txIdx (op : Operation) (a : Addr) (p : Byte) : (r.accept op a p).txIdx = 0 := rfl
@[simp] theorem Regs.accept_expTag (op : Operation) (a : Addr) (p : Byte) : (r.accept op a p).expTag = op.tag := rfl
@[simp] theorem Regs.accept_rxBuf (op : Operation) (a : Addr) (p : Byte) : (r.accept op a p).rxBuf = r.rxBuf := rfl
@[simp] theorem Regs.accept_rxCnt (op : Operation) (a : Addr) (p : Byte) : (r.accept op a p).rxCnt = 0 := rfl
@[simp] theorem Regs.accept_leadGuard (op : Operation) (a : Addr) (p : Byte) : (r.accept op a p).leadGuard = true := rfl
@[simp] theorem Regs.accept_tStart (op : Operation) (a : Addr) (p : Byte) : (r.accept op a p).tStart = r.tStart := rfl
@[simp] theorem Regs.accept_status (op : Operation) (a : Addr) (p : Byte) : (r.accept op a p).status = .none := rfl
@[simp] theorem Regs.accept_done (op : Operation) (a : Addr) (p : Byte) : (r.accept op a p).done = false := rfl
@[simp] theorem Regs.accept_resData (op : Operation) (a : Addr) (p : Byte) : (r.accept op a p).resData = 0 := rfl

@[simp] theorem Regs.reset_st (w : Nat) : (Regs.reset w).st = .idle := rfl
@[simp] theorem Regs.reset_cmdBuf (w : Nat) : (Regs.reset w).cmdBuf = #v[0, 0, 0, 0, 0, 0, 0] := rfl
@[simp] theorem Regs.reset_txIdx (w : Nat) : (Regs.reset w).txIdx = 0 := rfl
@[simp] theorem Regs.reset_expTag (w : Nat) : (Regs.reset w).expTag = 0 := rfl
@[simp] theorem Regs.reset_rxBuf (w : Nat) : (Regs.reset w).rxBuf = #v[0, 0, 0, 0, 0, 0] := rfl
@[simp] theorem Regs.reset_rxCnt (w : Nat) : (Regs.reset w).rxCnt = 0 := rfl
@[simp] theorem Regs.reset_leadGuard (w : Nat) : (Regs.reset w).leadGuard = false := rfl
@[simp] theorem Regs.reset_tStart (w : Nat) : (Regs.reset w).tStart = 0 := rfl
@[simp] theorem Regs.reset_status (w : Nat) : (Regs.reset w).status = .none := rfl
@[simp] theorem Regs.reset_done (w : Nat) : (Regs.reset w).done = false := rfl
@[simp] theorem Regs.reset_resData (w : Nat) : (Regs.reset w).resData = 0 := rfl

@[simp] theorem EnvStep.withRequest_rst {w : Nat} (e : EnvStep w) (q : Request) : (e.withRequest q).rst = e.rst := rfl
@[simp] theorem EnvStep.withRequest_txReady {w : Nat} (e : EnvStep w) (q : Request) : (e.withRequest q).txReady = e.txReady := rfl
@[simp] theorem EnvStep.withRequest_arrivals {w : Nat} (e : EnvStep w) (q : Request) : (e.withRequest q).arrivals = e.arrivals := rfl
@[simp] theorem EnvStep.withRequest_advance {w : Nat} (e : EnvStep w) (q : Request) : (e.withRequest q).advance = e.advance := rfl
@[simp] theorem EnvStep.withRequest_reqValid {w : Nat} (e : EnvStep w) (q : Request) : (e.withRequest q).reqValid = true := rfl
@[simp] theorem EnvStep.withRequest_reqCmd {w : Nat} (e : EnvStep w) (q : Request) : (e.withRequest q).reqCmd = q.cmd := rfl
@[simp] theorem EnvStep.withRequest_reqAddr {w : Nat} (e : EnvStep w) (q : Request) : (e.withRequest q).reqAddr = q.addr := rfl
@[simp] theorem EnvStep.withRequest_reqPayload {w : Nat} (e : EnvStep w) (q : Request) : (e.withRequest q).reqPayload = q.payload := rfl

@[simp] theorem System.pins_rst {w : Nat} (s : System w) (e : EnvStep w) : (s.pins e).rst = (e.rst) := rfl
@[simp] theorem System.pins_reqValid {w : Nat} (s : System w) (e : EnvStep w) : (s.pins e).reqValid = (e.reqValid) := rfl
@[simp] theorem System.pins_reqCmd {w : Nat} (s : System w) (e : EnvStep w) : (s.pins e).reqCmd = (e.reqCmd) := rfl
@[simp] theorem System.pins_reqAddr {w : Nat} (s : System w) (e : EnvStep w) : (s.pins e).reqAddr = (e.reqAddr) := rfl
@[simp] theorem System.pins_reqPayload {w : Nat} (s : System w) (e : EnvStep w) : (s.pins e).reqPayload = (e.reqPayload) := rfl
@[simp] theorem System.pins_txReady {w : Nat} (s : System w) (e : EnvStep w) : (s.pins e).txReady = (e.txReady) := rfl
@[simp] theorem System.pins_rxAvail {w : Nat} (s : System w) (e : EnvStep w) : (s.pins e).rxAvail = (!(s.queue e).isEmpty) := rfl
@[simp] theorem System.pins_rxData {w : Nat} (s : System w) (e : EnvStep w) : (s.pins e).rxData = (rxHead (s.queue e) s.tick) := rfl
@[simp] theorem System.pins_nowMs {w : Nat} (s : System w) (e : EnvStep w) : (s.pins e).nowMs = (s.now + e.advance) := rfl

@[simp] theorem State.advanced_regs (s : State) (x : Regs Config.timeW) (q t : List Byte) :
    (s.advanced x q t).regs = x := rfl
@[simp] theorem State.advanced_rxq (s : State) (x : Regs Config.timeW) (q t : List Byte) :
    (s.advanced x q t).rxq = q := rfl
@[simp] theorem State.advanced_txq (s : State) (x : Regs Config.timeW) (q t : List Byte) :
    (s.advanced x q t).txq = t := rfl
@[simp] theorem State.advanced_now (s : State) (x : Regs Config.timeW) (q t : List Byte) :
    (s.advanced x q t).now = s.now + s.coming.advance := rfl
@[simp] theorem State.advanced_inputs (s : State) (x : Regs Config.timeW) (q t : List Byte) :
    (s.advanced x q t).inputs = s.inputs.tail := rfl
@[simp] theorem State.advanced_tick (s : State) (x : Regs Config.timeW) (q t : List Byte) :
    (s.advanced x q t).tick = s.tick + 1 := rfl

@[simp] theorem System.reset_regs (w : Nat) : (System.reset w).regs = Regs.reset w := rfl
@[simp] theorem System.reset_rxq (w : Nat) : (System.reset w).rxq = [] := rfl
@[simp] theorem System.reset_txq (w : Nat) : (System.reset w).txq = [] := rfl
@[simp] theorem System.reset_now (w : Nat) : (System.reset w).now = 0 := rfl
@[simp] theorem System.reset_inputs (w : Nat) : (System.reset w).inputs = [] := rfl
@[simp] theorem System.reset_tick (w : Nat) : (System.reset w).tick = 0 := rfl
@[simp] theorem State.reset_toSystem : State.reset.toSystem = System.reset Config.timeW := rfl

theorem System.coming_cons {w : Nat} {s : System w} {e : EnvStep w} {es : List (EnvStep w)} (h : s.inputs = e :: es) :
    s.coming = e := by
  simp [System.coming, h]

theorem System.coming_nil {w : Nat} {s : System w} (h : s.inputs = []) : s.coming = EnvStep.free w s.tick := by
  simp [System.coming, h]

end Sys2Proof.Machine
end

