-- ==== Sys2Proof/Laws/Block.lean ====
section
/-! SUPPORT. What each shared operation of the block can do, said once: one lemma per operation, and the inversion of a whole
step of the block. -/

namespace Sys2Proof.Machine

variable {w : Nat}

theorem St.cases_of_not_idle {st : St} (h : st ≠ .idle) : st = .send ∨ st = .recv ∨ st = .check := by
  cases st <;> simp_all

/-- Storing a byte below index 6 writes the entry, the count and the guard. -/
theorem Regs.store_of_lt {r : Regs w} {b : Byte} (h : r.rxCnt.toNat < 6) :
    r.store b = .ok { r with rxBuf := r.rxBuf.set r.rxCnt.toNat b h, rxCnt := r.rxCnt + 1, leadGuard := false } := by
  simp [Regs.store, h]

/-- At index 6 or above there is no entry to write. -/
theorem Regs.store_of_ge {r : Regs w} {b : Byte} (h : ¬ r.rxCnt.toNat < 6) : r.store b = .error .rxIndexOutside := by
  simp [Regs.store, h]

/-- What a byte stored leaves: everything but the buffer, the count and the guard. -/
theorem Regs.store_eq_ok {r r' : Regs w} {b : Byte} (h : r.store b = .ok r') :
    ∃ hlt : r.rxCnt.toNat < 6,
      r' = { r with rxBuf := r.rxBuf.set r.rxCnt.toNat b hlt, rxCnt := r.rxCnt + 1, leadGuard := false } := by
  by_cases hlt : r.rxCnt.toNat < 6
  · rw [Regs.store_of_lt hlt] at h
    exact ⟨hlt, (Except.ok.inj h).symm⟩
  · rw [Regs.store_of_ge hlt] at h
    cases h

/-- Taking a byte discards a guarded zero and stores any other byte. -/
theorem Regs.take_eq_ok {r r' : Regs w} {b : Byte} (h : r.take b = .ok r') :
    (r.leadGuard = true ∧ b = 0 ∧ r' = { r with leadGuard := false }) ∨
    (¬(r.leadGuard = true ∧ b = 0) ∧ ∃ hlt : r.rxCnt.toNat < 6,
      r' = { r with rxBuf := r.rxBuf.set r.rxCnt.toNat b hlt, rxCnt := r.rxCnt + 1, leadGuard := false }) := by
  unfold Regs.take at h
  by_cases hz : r.leadGuard = true ∧ b = 0
  · rw [if_pos hz] at h
    exact .inl ⟨hz.1, hz.2, (Except.ok.inj h).symm⟩
  · rw [if_neg hz] at h
    exact .inr ⟨hz, Regs.store_eq_ok h⟩

theorem Regs.cmdByte?_eq_none_iff {r : Regs w} : r.cmdByte? = none ↔ r.txIdx = 7 := by
  unfold Regs.cmdByte?
  rw [Vector.getElem?_eq_none_iff]
  have := r.txIdx.isLt
  constructor
  · intro h; apply BitVec.eq_of_toNat_eq; simp; omega
  · intro h; simp [h]

theorem Regs.cmdByte?_eq_some {r : Regs w} (h : r.txIdx.toNat < 7) : r.cmdByte? = some r.cmdBuf[r.txIdx.toNat] := by
  simp [Regs.cmdByte?, h]

/-- Sending a byte that is not the last moves the index only. -/
theorem Regs.sent_of_ne {r : Regs w} {now : BitVec w} (h : r.txIdx ≠ 6) : r.sent now = { r with txIdx := r.txIdx + 1 } :=
  if_neg h

/-- Sending the last byte opens the response window. -/
theorem Regs.sent_of_last {r : Regs w} {now : BitVec w} (h : r.txIdx = 6) :
    r.sent now = { r with txIdx := 7, st := .recv, tStart := now } := by
  rw [Regs.sent, if_pos h, h]
  rfl

theorem Regs.exits_eq_true_iff {r : Regs w} {T : Nat} {now : BitVec w} :
    r.exits T now = true ↔ r.rxCnt = 6 ∨ T < (r.elapsed now).toNat := by
  simp [Regs.exits]

theorem Regs.exits_eq_false_iff {r : Regs w} {T : Nat} {now : BitVec w} :
    r.exits T now = false ↔ r.rxCnt ≠ 6 ∧ (r.elapsed now).toNat ≤ T := by
  simp [Regs.exits]

/-! ### The block's step, state by state -/

theorem Regs.next_of_reset {r : Regs w} {T : Nat} {p : Pins w} (h : p.rst = true) : r.next T p = .ok (Regs.reset w) :=
  if_pos h

theorem Regs.next_of_idle {r : Regs w} {T : Nat} {p : Pins w} (h : p.rst = false) (hst : r.st = .idle) :
    r.next T p = .ok (r.idleStep p) := by
  simp [Regs.next, h, hst]

theorem Regs.next_of_send {r : Regs w} {T : Nat} {p : Pins w} (h : p.rst = false) (hst : r.st = .send) :
    r.next T p = r.sendStep p := by
  simp [Regs.next, h, hst]

theorem Regs.next_of_recv {r : Regs w} {T : Nat} {p : Pins w} (h : p.rst = false) (hst : r.st = .recv) :
    r.next T p = r.recvStep T p := by
  simp [Regs.next, h, hst]

theorem Regs.next_of_check {r : Regs w} {T : Nat} {p : Pins w} (h : p.rst = false) (hst : r.st = .check) :
    r.next T p = r.checkStep := by
  simp [Regs.next, h, hst]

/-- What a step in IDLE can do: nothing, accept, or refuse. -/
theorem Regs.idleStep_cases (r : Regs w) (p : Pins w) :
    (p.reqValid = false ∧ r.idleStep p = r) ∨
    (p.reqValid = true ∧ ∃ op, Operation.ofByte? p.reqCmd = some op ∧
      r.idleStep p = r.accept op p.reqAddr p.reqPayload) ∨
    (p.reqValid = true ∧ Operation.ofByte? p.reqCmd = none ∧ r.idleStep p = r.refuse) := by
  cases hv : p.reqValid
  · exact .inl ⟨rfl, by simp [Regs.idleStep, hv]⟩
  · cases ho : Operation.ofByte? p.reqCmd with
    | none => exact .inr (.inr ⟨rfl, rfl, by simp [Regs.idleStep, hv, ho]⟩)
    | some op => exact .inr (.inl ⟨rfl, op, rfl, by simp [Regs.idleStep, hv, ho]⟩)

/-- What a completed step in SEND can do: send the byte, or wait. -/
theorem Regs.sendStep_eq_ok {r r' : Regs w} {p : Pins w} (h : r.sendStep p = .ok r') :
    r.txIdx ≠ 7 ∧ ((p.txReady = true ∧ r' = r.sent p.nowMs) ∨ (p.txReady = false ∧ r' = r)) := by
  unfold Regs.sendStep at h
  cases hb : r.cmdByte? with
  | none => simp [hb] at h
  | some b =>
    refine ⟨fun h7 => by simp [Regs.cmdByte?_eq_none_iff.mpr h7] at hb, ?_⟩
    rw [hb] at h
    have h := Except.ok.inj h
    cases ht : p.txReady
    · exact .inr ⟨rfl, by simpa [ht] using h.symm⟩
    · exact .inl ⟨rfl, by simpa [ht] using h.symm⟩

theorem Regs.sendStep_of_index {r : Regs w} {p : Pins w} (h : r.txIdx.toNat < 7) :
    r.sendStep p = .ok (if p.txReady then r.sent p.nowMs else r) := by
  simp [Regs.sendStep, Regs.cmdByte?_eq_some h]

/-- What a completed step in RECV can do: exit, wait, or take the byte. -/
theorem Regs.recvStep_eq_ok {r r' : Regs w} {T : Nat} {p : Pins w} (h : r.recvStep T p = .ok r') :
    (r.exits T p.nowMs = true ∧ r' = { r with st := .check }) ∨
    (r.exits T p.nowMs = false ∧ p.rxAvail = false ∧ r' = r) ∨
    (r.exits T p.nowMs = false ∧ p.rxAvail = true ∧ r.take p.rxData = .ok r') := by
  unfold Regs.recvStep at h
  cases he : r.exits T p.nowMs
  · cases ha : p.rxAvail
    · exact .inr (.inl ⟨rfl, rfl, by simpa [he, ha] using h.symm⟩)
    · exact .inr (.inr ⟨rfl, rfl, by simpa [he, ha] using h⟩)
  · exact .inl ⟨rfl, by simpa [he] using h.symm⟩

/-- What a completed step in CHECK can do: end the operation with one of the five outcomes, each under its own condition. -/
theorem Regs.checkStep_eq_ok {r r' : Regs w} (h : r.checkStep = .ok r') :
    (r.rxCnt.toNat < 6 ∧ r' = r.finish (if r.rxCnt = 0 then .timeout else .framing) 0) ∨
    (r.rxCnt = 6 ∧ cs8 r.rxSummed ≠ r.rxBuf[5] ∧ r' = r.finish .checksum 0) ∨
    (r.rxCnt = 6 ∧ cs8 r.rxSummed = r.rxBuf[5] ∧ r.rxBuf[0] ≠ r.expTag ∧ r' = r.finish .tagMismatch 0) ∨
    (r.rxCnt = 6 ∧ cs8 r.rxSummed = r.rxBuf[5] ∧ r.rxBuf[0] = r.expTag ∧ r' = r.finish .ok r.rxPayload) := by
  unfold Regs.checkStep at h
  by_cases h1 : r.rxCnt.toNat < 6
  · rw [if_pos h1] at h
    exact .inl ⟨h1, (Except.ok.inj h).symm⟩
  · rw [if_neg h1] at h
    by_cases h2 : r.rxCnt ≠ 6
    · rw [if_pos h2] at h
      cases h
    · rw [if_neg h2] at h
      have h2 := not_not.mp h2
      by_cases h3 : cs8 r.rxSummed ≠ r.rxBuf[5]
      · rw [if_pos h3] at h
        exact .inr (.inl ⟨h2, h3, (Except.ok.inj h).symm⟩)
      · rw [if_neg h3] at h
        by_cases h4 : r.rxBuf[0] ≠ r.expTag
        · rw [if_pos h4] at h
          exact .inr (.inr (.inl ⟨h2, not_not.mp h3, h4, (Except.ok.inj h).symm⟩))
        · rw [if_neg h4] at h
          exact .inr (.inr (.inr ⟨h2, not_not.mp h3, not_not.mp h4, (Except.ok.inj h).symm⟩))

/-- What a completed step of the block can do, by reset and control state. -/
theorem Regs.next_eq_ok {r r' : Regs w} {T : Nat} {p : Pins w} (h : r.next T p = .ok r') :
    (p.rst = true ∧ r' = Regs.reset w) ∨
    (p.rst = false ∧ r.st = .idle ∧ r' = r.idleStep p) ∨
    (p.rst = false ∧ r.st = .send ∧ r.sendStep p = .ok r') ∨
    (p.rst = false ∧ r.st = .recv ∧ r.recvStep T p = .ok r') ∨
    (p.rst = false ∧ r.st = .check ∧ r.checkStep = .ok r') := by
  cases hr : p.rst
  · cases hst : r.st
    · rw [Regs.next_of_idle hr hst] at h
      exact .inr (.inl ⟨rfl, rfl, (Except.ok.inj h).symm⟩)
    · exact .inr (.inr (.inl ⟨rfl, rfl, Regs.next_of_send hr hst ▸ h⟩))
    · exact .inr (.inr (.inr (.inl ⟨rfl, rfl, Regs.next_of_recv hr hst ▸ h⟩)))
    · exact .inr (.inr (.inr (.inr ⟨rfl, rfl, Regs.next_of_check hr hst ▸ h⟩)))
  · rw [Regs.next_of_reset hr] at h
    exact .inl ⟨rfl, (Except.ok.inj h).symm⟩

end Sys2Proof.Machine
end

