-- ==== Sys2Proof/Laws/Decode.lean ====
section
/-! SUPPORT. The small lemmas of the opcode map and the command frame. -/

namespace Sys2Proof

@[simp] theorem Operation.ofByte?_opcode (op : Operation) : Operation.ofByte? op.opcode = some op := by
  cases op <;> rfl

theorem Operation.opcode_of_ofByte? {c : Byte} {op : Operation} (h : Operation.ofByte? c = some op) : op.opcode = c := by
  unfold Operation.ofByte? at h
  split at h
  · simp_all [Operation.opcode]; subst h; rfl
  · split at h
    · simp_all [Operation.opcode]; subst h; rfl
    · split at h
      · simp_all [Operation.opcode]; subst h; rfl
      · split at h
        · simp_all [Operation.opcode]; subst h; rfl
        · split at h
          · simp_all [Operation.opcode]; subst h; rfl
          · split at h
            · simp_all [Operation.opcode]; subst h; rfl
            · simp at h

theorem Operation.tag_ne_zero (op : Operation) : op.tag ≠ 0 := by cases op <;> decide

theorem encodeCommand_toList (c : Byte) (a : Addr) (p : Byte) :
    (encodeCommand c a p).toList =
      [c, addrByte a 0, addrByte a 1, addrByte a 2, addrByte a 3, p,
        cs8 [c, addrByte a 0, addrByte a 1, addrByte a 2, addrByte a 3, p]] := rfl

theorem encodeCommand_length (c : Byte) (a : Addr) (p : Byte) : (encodeCommand c a p).toList.length = 7 := rfl

end Sys2Proof
end

