-- ==== Sys2Proof/Laws/Environment.lean ====
section
/-! SUPPORT. What one clock edge of the machine can do, and how exec and the fetch reduce to it. -/

namespace Sys2Proof.Machine

/-- A clock edge of the system answers a next one exactly when the block's step does, and then only the block's registers, the
transport's queues, the clock, the inputs and the counter move. -/
theorem System.edge_eq_ok_iff {w T : Nat} {s t : System w} {e : EnvStep w} :
    s.edge e T = .ok t ↔ ∃ r, s.regs.next T (s.pins e) = .ok r ∧
      t = { regs := r, rxq := s.queueAfter e T, txq := s.sentAfter e T, now := s.now + e.advance,
            inputs := s.inputs.tail, tick := s.tick + 1 } := by
  unfold System.edge
  cases h : s.regs.next T (s.pins e) <;> simp [eq_comm]

theorem System.edge_eq_error_iff {w T : Nat} {s : System w} {e : EnvStep w} {f : Fault} :
    s.edge e T = .error f ↔ s.regs.next T (s.pins e) = .error f := by
  unfold System.edge
  cases s.regs.next T (s.pins e) <;> simp

/-- The machine's clock edge, by the block's step. -/
theorem State.edge_def (s : State) (e : EnvStep Config.timeW) :
    s.edge e =
      match s.regs.next Config.timeoutMs (s.pins e) with
      | .error f => .fault f
      | .ok r => .next { regs := r, rxq := s.queueAfter e, txq := s.sentAfter e, now := s.now + e.advance,
                         inputs := s.inputs.tail, tick := s.tick + 1 } := by
  unfold State.edge System.edge outcome
  cases s.regs.next Config.timeoutMs (s.pins e) <;> rfl

/-- The machine's clock edge, likewise. -/
theorem State.edge_eq_next_iff {s t : State} {e : EnvStep Config.timeW} :
    s.edge e = .next t ↔ ∃ r, s.regs.next Config.timeoutMs (s.pins e) = .ok r ∧
      t = { regs := r, rxq := s.queueAfter e, txq := s.sentAfter e, now := s.now + e.advance,
            inputs := s.inputs.tail, tick := s.tick + 1 } := by
  rw [State.edge_def]
  cases h : s.regs.next Config.timeoutMs (s.pins e) <;> simp [eq_comm]

theorem State.edge_eq_fault_iff {s : State} {e : EnvStep Config.timeW} {f : Fault} :
    s.edge e = .fault f ↔ s.regs.next Config.timeoutMs (s.pins e) = .error f := by
  rw [State.edge_def]
  cases s.regs.next Config.timeoutMs (s.pins e) <;> simp

/-- A clock edge never refuses. -/
theorem State.edge_ne_refused {s : State} {e : EnvStep Config.timeW} {x : Refusal} : s.edge e ≠ .refused x := by
  unfold State.edge outcome
  split <;> simp

theorem State.present_eq_edge (s : State) (q : Request) : s.present q = s.edge (s.coming.withRequest q) := rfl

/-- exec is the clock edge that presents the instruction's request. -/
theorem exec_eq_present (i : Instr) (s : State) : exec i s = s.present i.request := by
  cases i <;> rfl

theorem System.fetch_eq_none_of_busy {w : Nat} {s : System w} (h : s.regs.st ≠ .idle) : s.fetch = none := by
  cases hst : s.regs.st <;> simp_all [System.fetch, Regs.reqReady]

theorem System.fetch_eq_none_of_reset {w : Nat} {s : System w} (h : s.coming.rst = true) : s.fetch = none := by
  simp [System.fetch, Regs.reqReady, h]

theorem System.fetch_eq_none_of_no_request {w : Nat} {s : System w} (h : s.coming.reqValid = false) : s.fetch = none := by
  simp [System.fetch, h]

theorem System.fetch_eq_some {w : Nat} {s : System w} (hst : s.regs.st = .idle) (hr : s.coming.rst = false)
    (hv : s.coming.reqValid = true) :
    s.fetch = some (Request.decode ⟨s.coming.reqCmd, s.coming.reqAddr, s.coming.reqPayload⟩) := by
  simp [System.fetch, Regs.reqReady, hst, hr, hv]

theorem System.step_of_busy {w T : Nat} {s : System w} (h : s.regs.st ≠ .idle) : s.step T = s.edge s.coming T := by
  simp [System.step, System.fetch_eq_none_of_busy h]

theorem step_of_busy {s : State} (h : s.regs.st ≠ .idle) : step s = s.edge s.coming := by
  simp [step, System.fetch_eq_none_of_busy h]

theorem step_of_reset {s : State} (h : s.coming.rst = true) : step s = s.edge s.coming := by
  simp [step, System.fetch_eq_none_of_reset h]

end Sys2Proof.Machine
end

