-- ==== Sys2Proof/Laws/PerInstr.lean ====
section
/-! SUPPORT. Per instruction: its encoding is a frame of 7 bytes for an operation and empty for a reserved command byte
(30_encoding.md R70, R81). -/

namespace Sys2Proof.Laws.FrameForm

/-- R70, R81: the length of an instruction's encoding. -/
def Statement (i : Instr) : Prop := i.encode.length = if i.isOperation then 7 else 0

theorem rdv (a : Addr) : Statement (.rdv a) := rfl
theorem rdi (a : Addr) : Statement (.rdi a) := rfl
theorem rdp (a : Addr) : Statement (.rdp a) := rfl
theorem rde (a : Addr) : Statement (.rde a) := rfl
theorem setaddr (a : Addr) : Statement (.setaddr a) := rfl
theorem setalarm (a : Addr) (p : Byte) : Statement (.setalarm a p) := rfl
theorem cmdReserved (c : Byte) (a : Addr) (p : Byte) : Statement (.cmdReserved c a p) := rfl

end Sys2Proof.Laws.FrameForm
end

