-- ==== Sys2Proof/Laws/Run.lean ====
section
/-! SUPPORT. Runs of several steps: how one step begins a run, how runs join, and that a run is the host's. -/

namespace Sys2Proof.Machine

@[simp] theorem run_zero (s : State) : run 0 s = .next s := rfl

theorem run_succ_of_next {k : Nat} {s t : State} (h : step s = .next t) : run (k + 1) s = run k t := by
  simp [run, h]

theorem run_succ_of_fault {k : Nat} {s : State} {f : Fault} (h : step s = .fault f) : run (k + 1) s = .fault f := by
  simp [run, h]

theorem run_succ_of_refused {k : Nat} {s : State} {x : Refusal} (h : step s = .refused x) :
    run (k + 1) s = .refused x := by
  simp [run, h]

@[simp] theorem System.run_zero {w : Nat} (s : System w) (T : Nat) : s.run 0 T = .ok s := rfl

theorem System.run_succ_of_ok {w T k : Nat} {s t : System w} (h : s.step T = .ok t) : s.run (k + 1) T = t.run k T := by
  simp [System.run, h]

/-- A run that answers a next state is the first part of every longer run. -/
theorem run_add {m n : Nat} {s t : State} (h : run m s = .next t) : run (m + n) s = run n t := by
  induction m generalizing s with
  | zero => cases h; simp
  | succ m ih =>
    rw [Nat.add_right_comm]
    cases hs : step s with
    | next u => exact (run_succ_of_next hs).trans (ih ((run_succ_of_next hs).symm.trans h))
    | fault f => cases (run_succ_of_fault hs).symm.trans h
    | refused x => cases (run_succ_of_refused hs).symm.trans h

/-- One step of a run of the host's interface, by the outcome of the step. -/
theorem coreRun_succ_of_next (M : Host.Core) {k : Nat} {s t : M.State} (h : M.step s = .next t) :
    M.run (k + 1) s = M.run k t := by
  simp [Host.Core.run, h]

theorem coreRun_succ_of_fault (M : Host.Core) {k : Nat} {s : M.State} {f : M.Fault} (h : M.step s = .fault f) :
    M.run (k + 1) s = .fault f := by
  simp [Host.Core.run, h]

theorem coreRun_succ_of_refused (M : Host.Core) {k : Nat} {s : M.State} {x : M.Refusal} (h : M.step s = .refused x) :
    M.run (k + 1) s = .refused x := by
  simp [Host.Core.run, h]

/-- The model's run is the run of the host's interface. -/
theorem run_eq_core_run (k : Nat) (s : State) : run k s = Host.Core.run Sys2Proof.core k s := by
  induction k generalizing s with
  | zero => rfl
  | succ k ih =>
    cases hs : step s with
    | next t => exact (run_succ_of_next hs).trans ((ih t).trans (coreRun_succ_of_next Sys2Proof.core hs).symm)
    | fault f => exact (run_succ_of_fault hs).trans (coreRun_succ_of_fault Sys2Proof.core hs).symm
    | refused x => exact (run_succ_of_refused hs).trans (coreRun_succ_of_refused Sys2Proof.core hs).symm

end Sys2Proof.Machine
end

