-- ==== Sys2Proof/Laws/Reference.lean ====
section
/-! SUPPORT. What the reference environment of 20_memory.md R63 drives in a step, port by port, and what one of its steps can do. -/

namespace Sys2Proof.Machine

variable {w : Nat} (env : RefEnv) (s : System w)

@[simp] theorem RefEnv.drive_rst : (env.drive s).rst = env.resets.contains env.k := by
  unfold RefEnv.drive
  cases env.requests <;> simp only <;> (try split) <;> rfl

@[simp] theorem RefEnv.drive_txReady : (env.drive s).txReady = !env.txHeld.contains env.k := by
  unfold RefEnv.drive
  cases env.requests <;> simp only <;> (try split) <;> rfl

@[simp] theorem RefEnv.drive_arrivals : (env.drive s).arrivals = if s.rxq.isEmpty then env.available w else [] := by
  unfold RefEnv.drive
  cases env.requests <;> simp only <;> (try split) <;> rfl

@[simp] theorem RefEnv.drive_advance : (env.drive s).advance = env.nowMs w - s.now := by
  unfold RefEnv.drive
  cases env.requests <;> simp only <;> (try split) <;> rfl

/-- RXQ offers its head or nothing. -/
theorem RefEnv.available_cases (w : Nat) :
    env.available w = [] ∨ ∃ x xs, env.rx = x :: xs ∧ env.available w = [x.byte] := by
  unfold RefEnv.available
  cases env.rx with
  | nil => exact .inl rfl
  | cons x xs =>
    simp only
    split
    · exact .inr ⟨x, xs, rfl, rfl⟩
    · exact .inl rfl

/-- A step of the reference environment is a step of the machine in what it drives; a byte not taken goes back to RXQ. -/
theorem RefEnv.step_eq_next {env env' : RefEnv} {s t : State} (h : env.step s = .next (env', t)) :
    ∃ u, Machine.step { s with inputs := [env.drive s.toSystem] } = .next u ∧ env' = env.after s.toSystem ∧
      t = if s.rxq.isEmpty then { u with rxq := [] } else u := by
  unfold RefEnv.step at h
  cases hu : Machine.step { s with inputs := [env.drive s.toSystem] } with
  | next u =>
    rw [hu] at h
    have h := Host.Outcome.next.inj h
    exact ⟨u, rfl, (congrArg Prod.fst h).symm, (congrArg Prod.snd h).symm⟩
  | fault f => rw [hu] at h; cases h
  | refused x => rw [hu] at h; cases h

end Sys2Proof.Machine
end

