-- ==== Sys2Proof/Tests/Slice0.lean ====
section
/-! SUPPORT. Tests of single steps against the vectors of 95_test_vectors.md (named in each comment), the well-formedness smoke test,
and for each statement a state and operands that meet its hypotheses. -/

namespace Sys2Proof.Tests

open Sys2Proof Sys2Proof.Machine

/-! ### States and readings the tests share -/

/-- 192.168.1.1, the address `A` of 95_test_vectors.md. -/
def addrA : Addr := 0xC0A80101

/-- An environment that does nothing in the step. -/
def quiet : EnvStep Config.timeW := ⟨false, false, 0, 0, 0, false, [], 0⟩

/-- A ready transport. -/
def ready : EnvStep Config.timeW := { quiet with txReady := true }

/-- A reset step. -/
def resetting : EnvStep Config.timeW := { quiet with rst := true, reqValid := true, reqCmd := 0xB0 }

/-- The registers after RDV to `A` was accepted (vector V-EN1). -/
def sendRegs : Regs Config.timeW := (Regs.reset Config.timeW).latched #v[0xB0, 0xC0, 0xA8, 0x01, 0x01, 0x00, 0x1A] 0xA0

/-- The registers at the start of the window opened at time 7. -/
def recvRegs : Regs Config.timeW := { sendRegs with st := .recv, txIdx := 7, tStart := 7 }

/-- The registers in CHECK with six bytes collected. -/
def checkRegs (frame : Vector Byte 6) : Regs Config.timeW :=
  { recvRegs with st := .check, rxBuf := frame, rxCnt := 6, leadGuard := false }

/-- A machine with the given registers at time 7 and one step fixed for its environment. -/
def machine (r : Regs Config.timeW) (e : EnvStep Config.timeW) : State := ⟨⟨r, [], [], 7, [e], 0⟩⟩

/-- The next state's reading of a field, if there is a next state. -/
def after {α : Type} (f : State → α) (o : Host.Outcome State Fault Refusal) : Option α :=
  match o with
  | .next t => some (f t)
  | .fault _ => none
  | .refused _ => none

/-! ### Well-formedness: a term each check refuses -/

theorem test_legal_byte_is_no_reserved_command : (Instr.cmdReserved 0xB0 addrA 0).wellFormed = false := by decide
theorem test_last_legal_byte_is_no_reserved_command : (Instr.cmdReserved 0xB5 addrA 0).wellFormed = false := by decide
theorem test_byte_below_is_reserved : (Instr.cmdReserved 0xAF addrA 0).wellFormed = true := by decide
theorem test_byte_above_is_reserved : (Instr.cmdReserved 0xB6 addrA 0).wellFormed = true := by decide

/-! ### Decoding: words written out from 30_encoding.md R70 (bit 0 of the table word is bit 0 of the command byte) -/

theorem test_decode_rdv : decodeTableWord 56 0x1A000101A8C0B0 = some (.rdv addrA) := by decide
theorem test_decode_rdi : decodeTableWord 56 0x1B000101A8C0B1 = some (.rdi addrA) := by decide
theorem test_decode_rdp : decodeTableWord 56 0x1C000101A8C0B2 = some (.rdp addrA) := by decide
theorem test_decode_rde : decodeTableWord 56 0x1D000101A8C0B3 = some (.rde addrA) := by decide
theorem test_decode_setaddr : decodeTableWord 56 0x1E000101A8C0B4 = some (.setaddr addrA) := by decide
theorem test_decode_setalarm : decodeTableWord 56 0x33140101A8C0B5 = some (.setalarm addrA 20) := by decide
theorem test_decode_reserved : decodeTableWord 56 0x00140101A8C0B6 = some (.cmdReserved 0xB6 addrA 20) := by decide
/-- The table's shortest word: the command byte alone, the rest zero. -/
theorem test_decode_bare_command_byte : decodeTableWord 8 0xB3 = some (.rde 0) := by decide

/-- V-EN1 as a frame, and one row for each reason a frame is refused. -/
theorem test_frame_rdv : decodeFrame [0xB0, 0xC0, 0xA8, 0x01, 0x01, 0x00, 0x1A] = .ok (.rdv addrA) := by rfl
theorem test_frame_short : decodeFrame [0xB0, 0xC0, 0xA8, 0x01, 0x01, 0x00] = .error .wrongLength := by rfl
theorem test_frame_reserved : decodeFrame [0xB6, 0, 0, 0, 0, 0, 0xB6] = .error .reservedCommand := by rfl
theorem test_frame_checksum : decodeFrame [0xB0, 0xC0, 0xA8, 0x01, 0x01, 0x00, 0x1B] = .error .badChecksum := by rfl
theorem test_frame_payload : decodeFrame [0xB0, 0, 0, 0, 0, 1, 0xB1] = .error .unusedPayload := by rfl

/-! ### Checksum and encoding: V-CS4, V-CS5, V-EN8, V-EN9, V-EN10, V-EN12 -/

theorem test_cs4 : cs8 [0xFF, 0xFF, 0xFF, 0xFF, 0xFF, 0xFF] = 0xFA := by decide
theorem test_cs5 : cs8 [0xFF, 0xFF, 0xFF, 0xFF, 0xFF] = 0xFB := by decide
theorem test_en8 : (Instr.rdv 0xFFFFFFFF).encode = [0xB0, 0xFF, 0xFF, 0xFF, 0xFF, 0x00, 0xAC] := by decide
theorem test_en9 : (Instr.setalarm 0xFFFFFFFF 0xFF).encode = [0xB5, 0xFF, 0xFF, 0xFF, 0xFF, 0xFF, 0xB0] := by decide
theorem test_en10 : (Instr.setalarm 0x0A000001 0xFF).encode = [0xB5, 0x0A, 0x00, 0x00, 0x01, 0xFF, 0xBF] := by decide
theorem test_en12 : (Instr.setalarm addrA 0).encode = [0xB5, 0xC0, 0xA8, 0x01, 0x01, 0x00, 0x1F] := by decide

/-! ### One step of each instruction: the frame and the tag of V-EN1 to V-EN6, the outcome of V-AC1 -/

theorem test_rdv_latches : after (fun t => (t.regs.cmdBuf.toList, t.regs.expTag)) (exec (.rdv addrA) (machine (Regs.reset _) quiet))
    = some ([0xB0, 0xC0, 0xA8, 0x01, 0x01, 0x00, 0x1A], 0xA0) := by decide
theorem test_rdi_latches : after (fun t => (t.regs.cmdBuf.toList, t.regs.expTag)) (exec (.rdi addrA) (machine (Regs.reset _) quiet))
    = some ([0xB1, 0xC0, 0xA8, 0x01, 0x01, 0x00, 0x1B], 0xA1) := by decide
theorem test_rdp_latches : after (fun t => (t.regs.cmdBuf.toList, t.regs.expTag)) (exec (.rdp addrA) (machine (Regs.reset _) quiet))
    = some ([0xB2, 0xC0, 0xA8, 0x01, 0x01, 0x00, 0x1C], 0xA2) := by decide
theorem test_rde_latches : after (fun t => (t.regs.cmdBuf.toList, t.regs.expTag)) (exec (.rde addrA) (machine (Regs.reset _) quiet))
    = some ([0xB3, 0xC0, 0xA8, 0x01, 0x01, 0x00, 0x1D], 0xA3) := by decide
theorem test_setaddr_latches : after (fun t => (t.regs.cmdBuf.toList, t.regs.expTag)) (exec (.setaddr addrA) (machine (Regs.reset _) quiet))
    = some ([0xB4, 0xC0, 0xA8, 0x01, 0x01, 0x00, 0x1E], 0xA4) := by decide
theorem test_setalarm_latches : after (fun t => (t.regs.cmdBuf.toList, t.regs.expTag)) (exec (.setalarm addrA 20) (machine (Regs.reset _) quiet))
    = some ([0xB5, 0xC0, 0xA8, 0x01, 0x01, 0x14, 0x33], 0xA5) := by decide
theorem test_reserved_is_badop : after (fun t => (t.regs.st, t.regs.status, t.regs.done, t.txq)) (exec (.cmdReserved 0xB6 addrA 0) (machine (Regs.reset _) quiet))
    = some (.idle, .badOp, true, []) := by decide
/-- V-EN11: `req_payload = 0x55` on the ports of an RDV is sent as 0x00. -/
theorem test_en11 : after (fun t => t.regs.cmdBuf.toList)
    (step (machine (Regs.reset _) { quiet with reqValid := true, reqCmd := 0xB0, reqAddr := addrA, reqPayload := 0x55 }))
    = some [0xB0, 0xC0, 0xA8, 0x01, 0x01, 0x00, 0x1A] := by decide
/-- V-AC4: a request presented in SEND is not sampled. -/
theorem test_ac4 : after (fun t => (t.regs.cmdBuf[0], t.regs.st)) (exec (.rde 0) (machine sendRegs quiet)) = some (0xB0, .send) := by decide
/-- A table word placed after reset runs in the very next step. -/
theorem test_placed_word_runs : after (fun t => (t.regs.st, t.regs.expTag)) (step (State.reset.withFetchWord 8 0xB2)) = some (.send, 0xA2) := by decide

/-! ### One step of each rule -/

/-- V-AC5: the first byte goes out. -/
theorem test_send_first_byte : after (fun t => (t.txq, t.regs.txIdx)) (step (machine sendRegs ready)) = some ([0xB0], 1) := by decide
/-- V-AC5: the last byte opens the window, at the time shown. -/
theorem test_send_last_byte : after (fun t => (t.txq, t.regs.st, t.regs.tStart, t.regs.txIdx))
    (step (machine { sendRegs with txIdx := 6 } { ready with advance := 2 })) = some ([0x1A], .recv, 9, 7) := by decide
/-- V-RC2: a leading zero is discarded, and the guard is spent. -/
theorem test_recv_leading_zero : after (fun t => (t.regs.rxCnt, t.regs.leadGuard, t.rxq))
    (step (machine recvRegs { quiet with arrivals := [0, 0xA0], advance := 13 })) = some (0, false, [0xA0]) := by decide
/-- V-RC3: a second zero is stored. -/
theorem test_recv_second_zero : after (fun t => (t.regs.rxCnt, t.rxq))
    (step (machine { recvRegs with leadGuard := false } { quiet with arrivals := [0, 0xA0], advance := 14 })) = some (1, [0xA0]) := by decide
/-- V-RC10: at `elapsed = 1000` a byte is still taken. -/
theorem test_recv_at_timeout : after (fun t => (t.regs.rxCnt, t.regs.st, t.regs.rxBuf[5]))
    (step (machine { recvRegs with rxCnt := 5 } { quiet with arrivals := [0x8B], advance := 1000 })) = some (6, .recv, 0x8B) := by decide
/-- V-RC11: at `elapsed = 1001` it is not. -/
theorem test_recv_past_timeout : after (fun t => (t.regs.rxCnt, t.regs.st, t.rxq))
    (step (machine { recvRegs with rxCnt := 5 } { quiet with arrivals := [0x8B], advance := 1001 })) = some (5, .check, [0x8B]) := by decide
/-- V-RC14: the window started at 0xFFFFFFF3, the clock has wrapped to 0, and a byte is taken. -/
theorem test_recv_wrapped_clock : after (fun t => (t.regs.rxCnt, t.regs.st))
    (step ⟨⟨{ recvRegs with tStart := 0xFFFFFFF3 }, [0xA0], [], 0xFFFFFFFF, [{ quiet with advance := 1 }], 0⟩⟩) = some (1, .recv) := by decide
/-- V-RC16: the clock goes back from 7 to 5 and the window closes. -/
theorem test_recv_backward_clock : after (fun t => t.regs.st) (step (machine recvRegs { quiet with advance := 0xFFFFFFFE })) = some .check := by decide
/-- V-RC1, V-RC6, V-RC7, V-RC8: the checks and their order. -/
theorem test_check_ok : after (fun t => (t.regs.status, t.regs.resData)) (step (machine (checkRegs #v[0xA0, 0x00, 0xE6, 0x05, 0x00, 0x8B]) quiet))
    = some (.ok, 0x00E60500) := by decide
theorem test_check_checksum : after (fun t => (t.regs.status, t.regs.resData)) (step (machine (checkRegs #v[0xA0, 0x00, 0xE6, 0x05, 0x00, 0x8C]) quiet))
    = some (.checksum, 0) := by decide
theorem test_check_tag : after (fun t => (t.regs.status, t.regs.resData)) (step (machine (checkRegs #v[0xA1, 0x00, 0xE6, 0x05, 0x00, 0x8C]) quiet))
    = some (.tagMismatch, 0) := by decide
theorem test_check_checksum_first : after (fun t => t.regs.status) (step (machine (checkRegs #v[0xA1, 0x00, 0xE6, 0x05, 0x00, 0x8B]) quiet))
    = some .checksum := by decide
/-- V-RC4, V-RC9: TIMEOUT with nothing collected, FRAMING with five. -/
theorem test_check_timeout : after (fun t => (t.regs.status, t.regs.done, t.regs.st)) (step (machine { recvRegs with st := .check } quiet))
    = some (.timeout, true, .idle) := by decide
theorem test_check_framing : after (fun t => t.regs.status) (step (machine { recvRegs with st := .check, rxCnt := 5 } quiet)) = some .framing := by decide
/-- V-AC6, V-AC7: reset in RECV leaves the reset values, and the transport its bytes. -/
theorem test_reset_in_recv : after (fun t => (t.regs, t.rxq)) (step ⟨⟨recvRegs, [0xE6], [], 7, [resetting], 0⟩⟩) = some (Regs.reset _, [0xE6]) := by decide

/-! ### Values: V-DE1, V-DE4, V-DE8, P4 -/

theorem test_de1 : decivolts 0x00E60500 = 2305 ∧ decodeEnergy 0x00E60500 = 58885 := by decide
theorem test_de4 : (decivolts 0xFFFFFFFF, centiamps 0xFFFFFFFF, decodePower 0xFFFFFFFF, decodeEnergy 0xFFFFFFFF) = (655605, 6553755, 65535, 16777215) := by decide
theorem test_de8 : (decivolts 0x0102FF00, centiamps 0x0102FF00, decodeEnergy 0x0102FF00) = (2835, 26055, 66303) := by decide
/-- P4: a set operation that failed has the ack false. -/
theorem test_failed_ack : ({ sendRegs with cmdBuf := #v[0xB5, 0, 0, 0, 0, 0, 0xB5], status := .tagMismatch, done := true } : Regs Config.timeW).reading?
    = some (.ack false) := by decide
theorem test_status_view : ({ sendRegs with status := .badOp, done := true, st := .idle } : Regs Config.timeW).statusView = 0x0E := by decide

/-! ### Witnesses: for each statement with hypotheses, values that meet all of them together, at the boundaries of its clauses -/

/-- A step that presents RDV to `A`. -/
def presenting : EnvStep Config.timeW := { quiet with reqValid := true, reqCmd := 0xB0, reqAddr := addrA }

/-- The invariants on the concrete registers the witnesses use. -/
theorem reset_inv : (Regs.reset Config.timeW).Inv := by constructor <;> decide
theorem sendRegs_inv : sendRegs.Inv := by constructor <;> decide
theorem recvRegs_inv : recvRegs.Inv := by constructor <;> decide
theorem zero_tag_inv : (checkRegs #v[0x00, 0xA0, 0x00, 0xE6, 0x05, 0x00]).Inv := by constructor <;> decide

theorem witness_RequestDecodesToItsInstruction :
    (Instr.setalarm addrA 0xFF).wellFormed = true ∧ (Instr.cmdReserved 0xB6 addrA 0).wellFormed = true := by decide
theorem witness_FrameDecodesToItsInstruction : (Instr.setalarm addrA 0xFF).isOperation = true := by decide
theorem witness_AcceptedFrameIsTheEncoding :
    decodeFrame [0xB5, 0xFF, 0xFF, 0xFF, 0xFF, 0xFF, 0xB0] = .ok (.setalarm 0xFFFFFFFF 0xFF) := by rfl
theorem witness_LegalCommandBytesAndTheirTags :
    Operation.ofByte? 0xB0 = some .readVoltage ∧ Operation.ofByte? 0xB5 = some .setAlarm := by decide
theorem witness_ChecksumIsCommutativeAndAdditive : ([0xE6, 0x00] : List Byte).Perm [0x00, 0xE6] := List.Perm.swap _ _ _
theorem witness_SingleBitErrorsAreDetected :
    cs8 ((#v[0xA0, 0x00, 0xE6, 0x05, 0x00, 0x8B] : Vector Byte 6).toList.take 5) = (#v[0xA0, 0x00, 0xE6, 0x05, 0x00, 0x8B] : Vector Byte 6)[5] := by
  decide
/-- The first and the last row of the table. -/
theorem witness_LegalRequestIsLatched : ∃ s t : State,
    (s.regs.st = .idle ∧ s.coming.rst = false ∧ s.coming.reqValid = true ∧ s.coming.reqCmd = 0xB0) ∧
    (t.regs.st = .idle ∧ t.coming.rst = false ∧ t.coming.reqValid = true ∧ t.coming.reqCmd = 0xB5) :=
  ⟨machine (Regs.reset _) presenting, machine (Regs.reset _) { presenting with reqCmd := 0xB5 }, by decide⟩
/-- For `ReadRequestsComplete` and `SetRequestsComplete`. -/
theorem witness_RequestsComplete : ∃ s : State, s.regs.st = .idle ∧ s.coming.rst = false :=
  ⟨machine (Regs.reset _) quiet, by decide⟩
/-- The reserved bytes on both sides of the table. -/
theorem witness_ReservedRequestReportsBadOp : ∃ s : State, s.regs.st = .idle ∧ s.coming.rst = false ∧
    (Instr.cmdReserved 0xAF addrA 0).wellFormed = true ∧ (Instr.cmdReserved 0xB6 addrA 0).wellFormed = true :=
  ⟨machine (Regs.reset _) quiet, by decide⟩
theorem witness_RequestIsNotAcceptedOtherwise : ∃ s t u : State,
    s.regs.st ≠ .idle ∧ (t.regs.st = .idle ∧ t.coming.rst = true) ∧
    (u.regs.st = .idle ∧ u.coming.rst = false ∧ u.coming.reqValid = false) :=
  ⟨machine sendRegs presenting, machine (Regs.reset _) resetting, machine (Regs.reset _) quiet, by decide⟩
/-- The first byte, the last byte, and a transport that is not ready. -/
theorem witness_SendStepMovesOneByte : ∃ s t u : State,
    (s.regs.txIdx = 0 ∧ s.regs.st = .send ∧ s.coming.rst = false ∧ s.coming.txReady = true) ∧
    (t.regs.txIdx = 6 ∧ t.regs.st = .send ∧ t.coming.rst = false ∧ t.coming.txReady = true) ∧
    (u.regs.txIdx = 6 ∧ u.regs.st = .send ∧ u.coming.rst = false ∧ u.coming.txReady = false) :=
  ⟨machine sendRegs ready, machine { sendRegs with txIdx := 6 } ready, machine { sendRegs with txIdx := 6 } quiet, by decide⟩
theorem witness_TransmitOutputsAreQuietOutsideSend : ∃ s t : State,
    s.regs.st ≠ .send ∧ (t.regs.st = .send ∧ resetting.rst = true) :=
  ⟨machine recvRegs ready, machine sendRegs resetting, by decide⟩
theorem witness_OnlyTheCommandFrameIsTransmitted : ∃ s t : State, step s = .next t ∧ t.txq = [0xB0] :=
  ⟨machine sendRegs ready, _, rfl, rfl⟩
/-- A full buffer in an open window, and a short one at `elapsed = 1001`. -/
theorem witness_RecvExitsWhenFullOrLate : ∃ s t : State,
    (s.regs.st = .recv ∧ s.coming.rst = false ∧ s.regs.rxCnt = 6) ∧
    (t.regs.st = .recv ∧ t.coming.rst = false ∧ t.regs.rxCnt = 5 ∧
      (t.now + t.coming.advance - t.regs.tStart).toNat = Config.timeoutMs + 1) :=
  ⟨machine { recvRegs with rxCnt := 6 } quiet, machine { recvRegs with rxCnt := 5 } { quiet with advance := 1001 }, by decide⟩
/-- At `elapsed = 1000`. -/
theorem witness_RecvWaitsWithoutAByte : ∃ s : State, s.regs.st = .recv ∧ s.coming.rst = false ∧ s.regs.rxCnt ≠ 6 ∧
    (s.now + s.coming.advance - s.regs.tStart).toNat = Config.timeoutMs ∧ s.rxq ++ s.coming.arrivals = [] :=
  ⟨machine recvRegs { quiet with advance := 1000 }, by decide⟩
/-- A guarded zero; and the last entry stored at `elapsed = 1000`. -/
theorem witness_RecvTakesOneByte : ∃ s t : State,
    (s.regs.st = .recv ∧ s.coming.rst = false ∧ s.regs.rxCnt ≠ 6 ∧
      (s.now + s.coming.advance - s.regs.tStart).toNat ≤ Config.timeoutMs ∧ s.rxq ++ s.coming.arrivals = [0x00, 0xA0] ∧
      s.regs.leadGuard = true) ∧
    (t.regs.st = .recv ∧ t.coming.rst = false ∧ t.regs.rxCnt = 5 ∧
      (t.now + t.coming.advance - t.regs.tStart).toNat = Config.timeoutMs ∧ t.rxq ++ t.coming.arrivals = [0x8B] ∧
      t.regs.leadGuard = false) :=
  ⟨machine recvRegs { quiet with arrivals := [0x00, 0xA0] },
   machine { recvRegs with rxCnt := 5, leadGuard := false } { quiet with arrivals := [0x8B], advance := 1000 }, by decide⟩
/-- A step that opens the window, and one that stays in it at `elapsed = 1000`. -/
theorem witness_StepLeavesTheWindowOpen : ∃ s t u v : State,
    (step s = .next t ∧ s.regs.st = .send ∧ t.regs.st = .recv) ∧
    (step u = .next v ∧ u.regs.st = .recv ∧ v.regs.st = .recv ∧ (v.now - v.regs.tStart).toNat = Config.timeoutMs) :=
  ⟨machine { sendRegs with txIdx := 6 } ready, _, machine recvRegs { quiet with advance := 1000 }, _, ⟨rfl, rfl, rfl⟩, rfl, rfl, rfl, rfl⟩
/-- A byte taken and a byte left. -/
theorem witness_ReceiveStreamIsAFifo : ∃ s t u v : State,
    ((s.outs s.coming).rxPop = true ∧ s.rxq ++ s.coming.arrivals = [0xA0, 0x00] ∧ step s = .next t) ∧
    ((u.outs u.coming).rxPop = false ∧ step u = .next v) :=
  ⟨machine recvRegs { quiet with arrivals := [0xA0, 0x00] }, _, machine sendRegs { quiet with arrivals := [0xA0] }, _,
    ⟨by decide, by decide, rfl⟩, by decide, rfl⟩
/-- No byte collected, and five. -/
theorem witness_ShortFrameTimesOutOrFrames : ∃ s t : State,
    (s.regs.st = .check ∧ s.coming.rst = false ∧ s.regs.rxCnt = 0) ∧
    (t.regs.st = .check ∧ t.coming.rst = false ∧ t.regs.rxCnt = 5 ∧ t.regs.rxCnt.toNat < 6) :=
  ⟨machine { recvRegs with st := .check } quiet, machine { recvRegs with st := .check, rxCnt := 5 } quiet, by decide⟩
/-- For the three statements about six collected bytes and for `CheckEndsInOneStep`: V-RC6, V-RC7 and V-RC1. -/
theorem witness_SixBytesInCheck : ∃ s t u : State,
    (s.regs.st = .check ∧ s.coming.rst = false ∧ s.regs.rxCnt = 6 ∧
      cs8 [s.regs.rxBuf[0], s.regs.rxBuf[1], s.regs.rxBuf[2], s.regs.rxBuf[3], s.regs.rxBuf[4]] ≠ s.regs.rxBuf[5]) ∧
    (t.regs.st = .check ∧ t.coming.rst = false ∧ t.regs.rxCnt = 6 ∧
      cs8 [t.regs.rxBuf[0], t.regs.rxBuf[1], t.regs.rxBuf[2], t.regs.rxBuf[3], t.regs.rxBuf[4]] = t.regs.rxBuf[5] ∧
      t.regs.rxBuf[0] ≠ t.regs.expTag) ∧
    (u.regs.st = .check ∧ u.coming.rst = false ∧ u.regs.rxCnt = 6 ∧ u.regs.rxCnt.toNat ≤ 6 ∧
      cs8 [u.regs.rxBuf[0], u.regs.rxBuf[1], u.regs.rxBuf[2], u.regs.rxBuf[3], u.regs.rxBuf[4]] = u.regs.rxBuf[5] ∧
      u.regs.rxBuf[0] = u.regs.expTag) :=
  ⟨machine (checkRegs #v[0xA0, 0x00, 0xE6, 0x05, 0x00, 0x8C]) quiet, machine (checkRegs #v[0xA1, 0x00, 0xE6, 0x05, 0x00, 0x8C]) quiet,
   machine (checkRegs #v[0xA0, 0x00, 0xE6, 0x05, 0x00, 0x8B]) quiet, by decide⟩
/-- V-RC3. -/
theorem witness_ZeroTagNeverSucceeds : ∃ s : State, s.regs.Inv ∧ s.regs.st = .check ∧ s.coming.rst = false ∧
    s.regs.rxCnt = 6 ∧ s.regs.rxBuf[0] = 0 :=
  ⟨machine (checkRegs #v[0x00, 0xA0, 0x00, 0xE6, 0x05, 0x00]) quiet, zero_tag_inv, by decide⟩
theorem witness_ResetOverridesEveryRule : ∃ s : State, s.coming.rst = true ∧ s.coming.reqValid = true ∧ s.regs.st = .recv :=
  ⟨machine recvRegs resetting, by decide⟩
theorem witness_StepRunsTheFetchedInstruction : ∃ s : State,
    (s.regs.st = .idle ∧ s.coming.rst = false ∧ s.coming.reqValid = true) ∧ decodeTableWord 8 0xB0 = some (.rdv 0) :=
  ⟨machine (Regs.reset _) presenting, by decide⟩
/-- For the invariant and the frame kept by a step, and for `NoStepStopsUnderTheInvariants`. -/
theorem witness_StepKeepsTheInvariants : ∃ s t : State, s.regs.Inv ∧ s.SentInv ∧ step s = .next t :=
  ⟨machine sendRegs ready, _, sendRegs_inv, ⟨fun _ => List.nil_suffix, fun h => by rcases h with h | h <;> cases h⟩, rfl⟩
/-- One state for each of the three faults. -/
theorem witness_FaultsAreExactlyThese :
    step (machine { sendRegs with txIdx := 7 } quiet) = .fault .cmdIndexOutside ∧
    step (machine { recvRegs with rxCnt := 7 } { quiet with arrivals := [0xA0] }) = .fault .rxIndexOutside ∧
    step (machine { recvRegs with st := .check, rxCnt := 7 } quiet) = .fault .rxCountOutside := ⟨rfl, rfl, rfl⟩
/-- One step for each transition: none, reset, a legal request, the last byte sent, RECV left full and at `elapsed = 1001`, and CHECK. -/
theorem witness_ControlStateTransitions : ∃ s1 t1 s2 t2 s3 t3 s4 t4 s5 t5 s6 t6 s7 t7 : State,
    (step s1 = .next t1 ∧ t1.regs.st = s1.regs.st) ∧
    (step s2 = .next t2 ∧ s2.regs.st = .recv ∧ t2.regs.st = .idle) ∧
    (step s3 = .next t3 ∧ s3.regs.st = .idle ∧ t3.regs.st = .send) ∧
    (step s4 = .next t4 ∧ s4.regs.st = .send ∧ t4.regs.st = .recv) ∧
    (step s5 = .next t5 ∧ s5.regs.rxCnt = 6 ∧ s5.regs.st = .recv ∧ t5.regs.st = .check) ∧
    (step s6 = .next t6 ∧ s6.regs.rxCnt = 0 ∧ s6.regs.st = .recv ∧ t6.regs.st = .check) ∧
    (step s7 = .next t7 ∧ s7.regs.st = .check ∧ t7.regs.st = .idle) :=
  ⟨machine sendRegs quiet, _, machine recvRegs resetting, _, machine (Regs.reset _) presenting, _,
    machine { sendRegs with txIdx := 6 } ready, _, machine { recvRegs with rxCnt := 6 } quiet, _,
    machine recvRegs { quiet with advance := 1001 }, _, machine { recvRegs with st := .check } quiet, _,
    ⟨rfl, rfl⟩, ⟨rfl, rfl, rfl⟩, ⟨rfl, rfl, rfl⟩, ⟨rfl, rfl, rfl⟩, ⟨rfl, rfl, rfl, rfl⟩, ⟨rfl, rfl, rfl, rfl⟩, rfl, rfl, rfl⟩
/-- A finished operation's outcome in an IDLE step without a request. -/
theorem witness_OutcomeIsStableUntilTheNextRequest : ∃ s t : State, step s = .next t ∧ s.coming.rst = false ∧
    s.regs.st ≠ .check ∧ (s.regs.st = .idle → s.coming.reqValid = false) ∧ s.regs.status = .ok :=
  ⟨machine { recvRegs with st := .idle, status := .ok, done := true, resData := 5 } quiet, _, rfl, by decide, by decide, by decide, by decide⟩
theorem witness_MeaninglessInputsHaveNoEffect : ∃ p : Pins Config.timeW, p.rxAvail = false ∧ p.reqValid = false :=
  ⟨System.pins (machine recvRegs quiet).toSystem quiet, by decide⟩
/-- Two buffers that differ at a stale entry, with a completed step. -/
theorem witness_StaleReceiveEntriesAreNeverRead : ∃ (r r' t : Regs Config.timeW) (p : Pins Config.timeW),
    r.agree r' ∧ r ≠ r' ∧ r.next 1000 p = .ok t :=
  ⟨recvRegs, { recvRegs with rxBuf := #v[0, 0, 0, 0, 0, 0xFF] }, _, System.pins (machine recvRegs quiet).toSystem quiet,
    ⟨rfl, fun i _ h => absurd h (Nat.not_lt_zero i)⟩, by decide, rfl⟩
theorem witness_SevenReadyStepsSendTheFrame : ∃ (s : State) (es rest : List (EnvStep Config.timeW)), s.regs.st = .send ∧ s.regs.txIdx = 0 ∧
    s.inputs = es ++ rest ∧ es.length = 7 ∧ ∀ e ∈ es, e.rst = false ∧ e.txReady = true :=
  ⟨⟨⟨sendRegs, [], [], 0, List.replicate 7 ready, 0⟩⟩, List.replicate 7 ready, [], by decide⟩
/-- The first byte of a frame, taken. -/
theorem witness_ReceptionIsReadResponse : ∃ (s0 s : State), s0.regs.rxCnt = 0 ∧ s0.regs.leadGuard = true ∧ ReceivePath s0 [0xA0] s :=
  ⟨machine recvRegs { quiet with arrivals := [0xA0] }, _, rfl, rfl,
    .take (rest := []) (.start rfl) rfl (by decide) rfl rfl rfl⟩
/-- V-RC2 with the answer arriving from the second step of the window on: RDV to `A` with 0x55 on the payload port, answered by
230.5 V behind a leading zero. -/
def answering : List (EnvStep Config.timeW) :=
  [0x00, 0xA0, 0x00, 0xE6, 0x05, 0x00, 0x8B].map fun b => { quiet with arrivals := [b], advance := 1 }
theorem witness_OperationAnsweredInTimeSucceeds : ∃ (s : State) (accept : EnvStep Config.timeW) (sends takes : List (EnvStep Config.timeW)),
    (Instr.rdv addrA).isOperation = true ∧ Operation.ofByte? (Instr.rdv addrA).request.cmd = some .readVoltage ∧
    s.regs.st = .idle ∧ accept.presents (.rdv addrA) ∧
    s.inputs = accept :: (sends ++ (takes ++ quiet :: quiet :: [])) ∧ sends.length = 7 ∧
    accept.rst = false ∧ (∀ e ∈ sends, e.rst = false ∧ e.txReady = true) ∧ (∀ e ∈ takes, e.rst = false) ∧ quiet.rst = false ∧
    s.rxq ++ accept.arrivals ++ arrivalsOf sends ++ arrivalsOf takes =
      [0x00] ++ [Operation.readVoltage.tag, 0x00, 0xE6, 0x05, 0x00, cs8 [Operation.readVoltage.tag, 0x00, 0xE6, 0x05, 0x00]] ++ [] ∧
    comeInTime (6 + [(0x00 : Byte)].length) (s.rxq ++ accept.arrivals ++ arrivalsOf sends) takes ∧
    advanceOf takes ≤ Config.timeoutMs :=
  ⟨⟨⟨Regs.reset _, [], [], 0, { presenting with reqPayload := 0x55 } :: (List.replicate 7 ready ++ (quiet :: answering ++ [quiet, quiet])), 0⟩⟩,
    { presenting with reqPayload := 0x55 }, List.replicate 7 ready, quiet :: answering,
    by decide, by decide, by decide, ⟨by decide, by decide⟩, by decide, by decide, by decide, by decide, by decide, by decide,
    by decide, ⟨by decide, by decide⟩, by decide⟩
theorem witness_ReceptionEndsWithinTheWindow : ∃ (s : State) (es : List (EnvStep Config.timeW)), s.regs.Inv ∧ s.regs.st = .recv ∧
    s.now = s.regs.tStart ∧ s.inputs = es ++ [] ∧ es.length = Config.timeoutMs + 1 ∧ ∀ e ∈ es, e.rst = false ∧ e.advance = 1 :=
  ⟨⟨⟨recvRegs, [], [], 7, List.replicate 1001 { quiet with advance := 1 }, 0⟩⟩, List.replicate 1001 { quiet with advance := 1 },
    recvRegs_inv, rfl, rfl, (List.append_nil _).symm, List.length_replicate,
    fun e he => by rw [(List.mem_replicate.mp he).2]; exact ⟨rfl, rfl⟩⟩
theorem witness_SendWaitsForTheTransportForever : ∃ (s : State) (es : List (EnvStep Config.timeW)), s.regs.st = .send ∧ s.regs.txIdx.toNat < 7 ∧
    s.inputs = es ++ [] ∧ es ≠ [] ∧ ∀ e ∈ es, e.rst = false ∧ e.txReady = false :=
  ⟨⟨⟨sendRegs, [], [], 0, [quiet, quiet], 0⟩⟩, [quiet, quiet], by decide⟩
theorem witness_RecvWaitsForAStoppedClockForever : ∃ (s : State) (es : List (EnvStep Config.timeW)), s.regs.st = .recv ∧ s.regs.rxCnt ≠ 6 ∧
    s.rxq = [] ∧ (s.now - s.regs.tStart).toNat ≤ Config.timeoutMs ∧ s.inputs = es ++ [] ∧ es ≠ [] ∧
    ∀ e ∈ es, e.rst = false ∧ e.advance = 0 ∧ e.arrivals = [] :=
  ⟨⟨⟨recvRegs, [], [], 1007, [quiet, quiet], 0⟩⟩, [quiet, quiet], by decide⟩
/-- P1's environment in step 0. -/
theorem witness_ReferenceEnvironmentKeepsTime : ∃ (env env' : RefEnv) (s t : State), env.step s = .next (env', t) ∧
    env.requests = [⟨0xB0, addrA, 0⟩] ∧ s.regs.st = .idle :=
  ⟨⟨[⟨0xB0, addrA, 0⟩], rxAt 20 [0x00, 0xA0], 0, 0, [], []⟩, _, State.reset, _, rfl, rfl, rfl⟩
/-- A short frame in a 4-bit clock's window. -/
theorem witness_WindowCanExpireExactlyUnderTheBound : (Regs.reset 4).rxCnt ≠ 6 ∧ Config.TimeoutFits 4 14 ∧ ¬Config.TimeoutFits 4 15 := by
  unfold Config.TimeoutFits; decide
theorem witness_SystemStepKeepsTheRegisterInvariants : (System.reset 4).regs.Inv := by constructor <;> decide
/-- A window of 5 ms under a 4-bit clock that moves by 3 ms a step. -/
theorem witness_ReceptionEndsOnceTheClockAdvances : ∃ (s : System 4) (es : List (EnvStep 4)), s.regs.Inv ∧ s.regs.st = .recv ∧
    s.inputs = es ++ [] ∧ es ≠ [] ∧ (∀ e ∈ es, e.rst = false) ∧ 5 < (s.now - s.regs.tStart).toNat + advanceOf es ∧
    (s.now - s.regs.tStart).toNat + advanceOf es < 2 ^ 4 :=
  ⟨⟨{ (Regs.reset 4).accept .readVoltage addrA 0 with st := .recv, txIdx := 7, tStart := 9 }, [], [], 9,
      List.replicate 2 ⟨false, false, 0, 0, 0, false, [], 3⟩, 0⟩, List.replicate 2 ⟨false, false, 0, 0, 0, false, [], 3⟩,
    by constructor <;> decide, by decide⟩
/-- V-RC14's environment: in step 19 the byte is not there, in step 20, when the clock has wrapped to 0, it is. -/
theorem witness_ReferenceEnvironmentDrivesThePorts : ∃ (env env' : RefEnv) (s t : State), env.step s = .next (env', t) ∧ s.rxq = [] ∧
    env.rx = rxAt 0 [0xA0] 20 ∧ env.available 32 = [] ∧ env'.available 32 = [0xA0] :=
  ⟨⟨[], rxAt 0 [0xA0] 20, 0xFFFFFFEC, 19, [], []⟩, _, machine recvRegs quiet, _, rfl, rfl, rfl, rfl, rfl⟩
/-- R63: `arrival_ms <= now_ms` is compared with the time shown, here 4 after the wrap of the clock. -/
theorem test_arrival_after_wrap : (RefEnv.available ⟨[], rxAt 10 [0xA0], 0xFFFFFFFF, 5, [], []⟩ 32) = [] := by decide
/-- The clauses of the reading: no operation, a set operation, a failed read, and a successful one. -/
theorem witness_ReadingsExistOnlyOnSuccess : ∃ a b c d : Regs Config.timeW,
    Operation.ofByte? a.cmdBuf[0] = none ∧ b.cmdBuf[0] = 0xB5 ∧
    (c.cmdBuf[0] = 0xB0 ∧ ¬(c.status = .ok ∧ c.done = true)) ∧ (d.cmdBuf[0] = 0xB0 ∧ d.status = .ok ∧ d.done = true) :=
  ⟨Regs.reset _, { sendRegs with cmdBuf := #v[0xB5, 0, 0, 0, 0, 0, 0xB5] }, { sendRegs with status := .checksum, done := true },
    { sendRegs with status := .ok, done := true }, by decide⟩

end Sys2Proof.Tests
end

section
/-! PROOFS. When the transmit and receive ports are quiet (40_checksum_encode_send.md R110, 41_receive_check.md R126), and what a
clock edge then does with the two queues. -/

namespace Sys2Proof.Machine

variable {w : Nat}

theorem Regs.reqReady_eq_false {r : Regs w} {p : Pins w} (h : r.st ≠ .idle ∨ p.rst = true) : r.reqReady p = false := by
  rcases h with h | h <;> simp [Regs.reqReady, h]

theorem Regs.reqReady_of_idle {r : Regs w} {p : Pins w} (hst : r.st = .idle) (hr : p.rst = false) :
    r.reqReady p = true := by
  simp [Regs.reqReady, hst, hr]

theorem Regs.txValid_eq_false {r : Regs w} {p : Pins w} (h : r.st ≠ .send ∨ p.rst = true) : r.txValid p = false := by
  rcases h with h | h <;> simp [Regs.txValid, h]

theorem Regs.txValid_of_send {r : Regs w} {p : Pins w} (hst : r.st = .send) (hr : p.rst = false) :
    r.txValid p = true := by
  simp [Regs.txValid, hst, hr]

/-- R110: `tx_data` is 0x00 whenever no byte is offered. -/
theorem Regs.txData_of_not_valid {r : Regs w} {p : Pins w} {tick : Nat} (h : r.txValid p = false) :
    r.txData p tick = 0x00 := by
  simp [Regs.txData, h]

/-- R107: the byte offered is the one at `tx_idx`. -/
theorem Regs.txData_of_valid {r : Regs w} {p : Pins w} {tick : Nat} (h : r.txValid p = true) (hidx : r.txIdx.toNat < 7) :
    r.txData p tick = r.cmdBuf[r.txIdx.toNat] := by
  simp [Regs.txData, h, Regs.cmdByte?_eq_some hidx]

theorem Regs.rxPop_of_ne_recv {r : Regs w} {T : Nat} {p : Pins w} (h : r.st ≠ .recv) : r.rxPop T p = false := by
  simp [Regs.rxPop, h]

/-- Arriving bytes only join the queue in a step that takes none. -/
theorem System.queueAfter_of_not_pop {s : System w} {e : EnvStep w} {T : Nat} (h : (s.outs e T).rxPop = false) :
    s.queueAfter e T = s.rxq ++ e.arrivals := by
  simp [System.queueAfter, h, System.queue]

theorem System.sentAfter_of_not_valid {s : System w} {e : EnvStep w} {T : Nat} (h : (s.outs e T).txValid = false) :
    s.sentAfter e T = s.txq := by
  simp [System.sentAfter, h]

theorem System.sentAfter_of_not_ready {s : System w} {e : EnvStep w} {T : Nat} (h : e.txReady = false) :
    s.sentAfter e T = s.txq := by
  simp [System.sentAfter, h]

theorem System.sentAfter_of_transfer {s : System w} {e : EnvStep w} {T : Nat} (hv : (s.outs e T).txValid = true)
    (hr : e.txReady = true) : s.sentAfter e T = s.txq ++ [(s.outs e T).txData] := by
  simp [System.sentAfter, hv, hr]

/-- A completed clock edge is the state one edge later, with the block's next registers and the queues the ports leave. -/
theorem State.edge_eq_advanced {s : State} {e : EnvStep Config.timeW} {r : Regs Config.timeW}
    (hadv : e.advance = s.coming.advance) (hnext : s.regs.next Config.timeoutMs (s.pins e) = .ok r) :
    s.edge e = .next (s.advanced r (s.queueAfter e) (s.sentAfter e)) := by
  rw [State.edge_eq_next_iff]
  exact ⟨r, hnext, by rw [hadv]; rfl⟩

/-- A completed clock edge that offers no byte and takes none changes the registers and queues the arrivals, nothing else. -/
theorem State.edge_of_quiet {s : State} {e : EnvStep Config.timeW} {r : Regs Config.timeW}
    (hadv : e.advance = s.coming.advance) (hnext : s.regs.next Config.timeoutMs (s.pins e) = .ok r)
    (hpop : (s.outs e).rxPop = false) (htx : (s.outs e).txValid = false) :
    s.edge e = .next (s.advanced r (s.rxq ++ e.arrivals) s.txq) := by
  rw [State.edge_eq_advanced hadv hnext, System.queueAfter_of_not_pop hpop, System.sentAfter_of_not_valid htx]

/-- Settles O15: no byte is offered outside SEND or in a reset step, and an output port without a byte shows 0x00. -/
theorem transmitOutputsAreQuietOutsideSend : Obligations.TransmitOutputsAreQuietOutsideSend := by
  intro s e h
  have htx : s.regs.txValid (s.pins e) = false := Regs.txValid_eq_false h
  exact ⟨htx, Regs.txData_of_not_valid htx⟩

end Sys2Proof.Machine
end

section
/-! PROOFS. A request presented in IDLE (40_checksum_encode_send.md R104, R105): it is accepted or refused in the step, and the
registers it leaves are those the spec writes out. -/

namespace Sys2Proof

/-- R103: the model's frame is the one written out from R70. -/
theorem encodeCommand_eq_wireFrame (c : Byte) (a : Addr) (p : Byte) : encodeCommand c a p = Machine.wireFrame c a p := by
  simp [encodeCommand, Machine.wireFrame, cs8, addrByte, Nat.add_assoc]

/-- R72: only the threshold of 0xB5 is sent. -/
theorem Operation.payload_eq_ite (op : Operation) (p : Byte) :
    op.payload p = if op.opcode = 0xB5 then p else 0x00 := by
  cases op <;> rfl

@[simp] theorem Operation.payload_payload (op : Operation) (p : Byte) : op.payload (op.payload p) = op.payload p := by
  cases op <;> rfl

/-- R78: the command byte of an operation is legal. -/
theorem Operation.legalCommand_opcode (op : Operation) : legalCommand op.opcode = true := by
  cases op <;> rfl

/-- R78: a byte that is not legal selects no operation. -/
theorem Operation.ofByte?_eq_none {c : Byte} (h : legalCommand c = false) : Operation.ofByte? c = none := by
  cases hop : Operation.ofByte? c with
  | none => rfl
  | some op =>
    have hlegal := op.legalCommand_opcode
    rw [Operation.opcode_of_ofByte? hop, h] at hlegal
    cases hlegal

/-- The six rows of the table of R76, each with its operation. -/
theorem Operation.exists_of_mem_table {c tag : Byte}
    (h : (c, tag) ∈ [((0xB0 : Byte), (0xA0 : Byte)), (0xB1, 0xA1), (0xB2, 0xA2), (0xB3, 0xA3), (0xB4, 0xA4), (0xB5, 0xA5)]) :
    ∃ op : Operation, op.opcode = c ∧ op.tag = tag := by
  simp only [List.mem_cons, List.not_mem_nil, Prod.mk.injEq, or_false] at h
  rcases h with ⟨rfl, rfl⟩ | ⟨rfl, rfl⟩ | ⟨rfl, rfl⟩ | ⟨rfl, rfl⟩ | ⟨rfl, rfl⟩ | ⟨rfl, rfl⟩
  · exact ⟨.readVoltage, rfl, rfl⟩
  · exact ⟨.readCurrent, rfl, rfl⟩
  · exact ⟨.readPower, rfl, rfl⟩
  · exact ⟨.readEnergy, rfl, rfl⟩
  · exact ⟨.setAddress, rfl, rfl⟩
  · exact ⟨.setAlarm, rfl, rfl⟩

/-- A request for an operation, decoded and presented again, keeps all but a payload that is not sent (log 13). -/
theorem Operation.request_decode (op : Operation) (a : Addr) (p : Byte) :
    (Request.decode ⟨op.opcode, a, p⟩).request = ⟨op.opcode, a, op.payload p⟩ := by
  cases op <;> rfl

end Sys2Proof

namespace Sys2Proof.Machine

variable {w : Nat}

/-- R104: what accepting latches, with the frame written out. -/
theorem Regs.accept_eq_latched (r : Regs w) (op : Operation) (a : Addr) (p : Byte) :
    r.accept op a p = r.latched (wireFrame op.opcode a (op.payload p)) op.tag := by
  rw [← encodeCommand_eq_wireFrame]
  rfl

theorem Regs.idleStep_of_no_request {r : Regs w} {p : Pins w} (h : p.reqValid = false) : r.idleStep p = r := by
  simp [Regs.idleStep, h]

theorem Regs.idleStep_of_operation {r : Regs w} {p : Pins w} {op : Operation} (hv : p.reqValid = true)
    (hop : Operation.ofByte? p.reqCmd = some op) : r.idleStep p = r.accept op p.reqAddr p.reqPayload := by
  simp [Regs.idleStep, hv, hop]

theorem Regs.idleStep_of_reserved {r : Regs w} {p : Pins w} (hv : p.reqValid = true)
    (hop : Operation.ofByte? p.reqCmd = none) : r.idleStep p = r.refuse := by
  simp [Regs.idleStep, hv, hop]

/-- A clock edge in IDLE sends and takes nothing, so only the registers of `idleStep` change. -/
theorem State.edge_of_idle {s : State} {e : EnvStep Config.timeW} (hst : s.regs.st = .idle) (hr : e.rst = false)
    (hadv : e.advance = s.coming.advance) :
    s.edge e = .next (s.advanced (s.regs.idleStep (s.pins e)) (s.rxq ++ e.arrivals) s.txq) :=
  State.edge_of_quiet hadv (Regs.next_of_idle hr hst) (Regs.rxPop_of_ne_recv (by simp [hst]))
    (Regs.txValid_eq_false (.inl (by simp [hst])))

/-- An instruction presented in IDLE outside reset is a step of the block in IDLE with the instruction's request on the ports. -/
theorem exec_of_idle {s : State} (i : Instr) (hst : s.regs.st = .idle) (hr : s.coming.rst = false) :
    exec i s = .next (s.advanced (s.regs.idleStep (s.pins (s.coming.withRequest i.request)))
      (s.rxq ++ s.coming.arrivals) s.txq) :=
  (exec_eq_present i s).trans (State.edge_of_idle (e := s.coming.withRequest i.request) hst hr rfl)

/-- R104: an instruction whose command byte is legal is accepted in IDLE. -/
theorem exec_of_operation {s : State} {i : Instr} {op : Operation} (hst : s.regs.st = .idle) (hr : s.coming.rst = false)
    (hop : Operation.ofByte? i.request.cmd = some op) :
    exec i s = .next (s.advanced (s.regs.accept op i.request.addr i.request.payload) (s.rxq ++ s.coming.arrivals) s.txq) := by
  rw [exec_of_idle i hst hr, Regs.idleStep_of_operation rfl hop]
  rfl

/-- R105: an instruction whose command byte is reserved is refused in IDLE. -/
theorem exec_of_reserved {s : State} {i : Instr} (hst : s.regs.st = .idle) (hr : s.coming.rst = false)
    (hop : Operation.ofByte? i.request.cmd = none) :
    exec i s = .next (s.advanced s.regs.refuse (s.rxq ++ s.coming.arrivals) s.txq) := by
  rw [exec_of_idle i hst hr, Regs.idleStep_of_reserved rfl hop]

/-- A step in IDLE with a request on the ports runs the instruction it decodes to. -/
theorem step_of_request {s : State} (hst : s.regs.st = .idle) (hr : s.coming.rst = false) (hv : s.coming.reqValid = true) :
    step s = exec (Request.decode ⟨s.coming.reqCmd, s.coming.reqAddr, s.coming.reqPayload⟩) s := by
  simp [step, System.fetch_eq_some hst hr hv]

theorem step_of_no_request {s : State} (hv : s.coming.reqValid = false) : step s = s.edge s.coming := by
  simp [step, System.fetch_eq_none_of_no_request hv]

/-- Settles O9: the row of the table is an operation, the request decodes to an instruction for it, and accepting that instruction
latches the frame with the payload the operation sends. -/
theorem legalRequestIsLatched : Obligations.LegalRequestIsLatched := by
  intro s c tag hrow hst hr hv hc
  obtain ⟨op, rfl, rfl⟩ := Operation.exists_of_mem_table hrow
  refine ⟨Regs.reqReady_of_idle hst hr, ?_⟩
  have hreq : (Request.decode ⟨s.coming.reqCmd, s.coming.reqAddr, s.coming.reqPayload⟩).request =
      ⟨op.opcode, s.coming.reqAddr, op.payload s.coming.reqPayload⟩ := by
    rw [hc, Operation.request_decode]
  rw [step_of_request hst hr hv, exec_of_operation (op := op) hst hr (by simp [hreq]), hreq, Regs.accept_eq_latched,
    Operation.payload_payload, Operation.payload_eq_ite]

/-- Settles O12: a reserved byte selects no operation, so the request is refused; in IDLE the ports send and take nothing. -/
theorem reservedRequestReportsBadOp : Obligations.ReservedRequestReportsBadOp := by
  intro s c a p hst hr hwf
  have hop : Operation.ofByte? c = none := Operation.ofByte?_eq_none (by simpa [Instr.wellFormed] using hwf)
  exact ⟨exec_of_reserved hst hr hop, Regs.reqReady_of_idle hst hr, Regs.txValid_eq_false (.inl (by simp [hst])),
    Regs.rxPop_of_ne_recv (by simp [hst])⟩

end Sys2Proof.Machine
end

section
/-! PROOFS. Steps that accept no request (40_checksum_encode_send.md R106): outside IDLE and in a reset step the request ports are
not sampled. -/

namespace Sys2Proof.Machine

variable {w : Nat}

/-- R106: outside IDLE and in a reset step the next registers do not depend on the request. -/
theorem System.next_withRequest {s : System w} {e : EnvStep w} {T : Nat} (h : s.regs.st ≠ .idle ∨ e.rst = true)
    (q : Request) : s.regs.next T (s.pins (e.withRequest q)) = s.regs.next T (s.pins e) := by
  cases hr : e.rst
  · have hst : s.regs.st ≠ .idle := h.resolve_right (by simp [hr])
    rcases St.cases_of_not_idle hst with hst | hst | hst
    · exact (Regs.next_of_send hr hst).trans (Regs.next_of_send (p := s.pins e) hr hst).symm
    · exact (Regs.next_of_recv hr hst).trans (Regs.next_of_recv (p := s.pins e) hr hst).symm
    · exact (Regs.next_of_check hr hst).trans (Regs.next_of_check (p := s.pins e) hr hst).symm
  · exact (Regs.next_of_reset hr).trans (Regs.next_of_reset (p := s.pins e) hr).symm

/-- R106: nor does the whole clock edge, since no port but the request ports carries the request. -/
theorem State.edge_withRequest {s : State} {e : EnvStep Config.timeW} (h : s.regs.st ≠ .idle ∨ e.rst = true) (q : Request) :
    s.edge (e.withRequest q) = s.edge e := by
  rw [State.edge_def, System.next_withRequest h, State.edge_def]
  rfl

/-- Settles O13: a busy or reset step is the clock edge, which does not see the request; in IDLE without one nothing is latched. -/
theorem requestIsNotAcceptedOtherwise : Obligations.RequestIsNotAcceptedOtherwise := by
  refine ⟨fun s i h => ?_, fun s hst hr hv => ?_⟩
  · have hstep : step s = s.edge s.coming := h.elim step_of_busy step_of_reset
    have hedge (q : Request) : s.edge (s.coming.withRequest q) = step s := (State.edge_withRequest h q).trans hstep.symm
    exact ⟨Regs.reqReady_eq_false h, (exec_eq_present i s).trans (hedge i.request), hedge⟩
  · rw [step_of_no_request hv, State.edge_of_idle hst hr rfl, Regs.idleStep_of_no_request hv]

end Sys2Proof.Machine
end

section
/-! PROOFS. A step in SEND (40_checksum_encode_send.md R107, R108). -/

namespace Sys2Proof.Machine

variable {w : Nat}

/-- R107, R108: the registers after a transfer, with the index after the last byte written out. -/
theorem Regs.sent_eq_ite (r : Regs w) (now : BitVec w) :
    r.sent now = if r.txIdx = 6 then { r with txIdx := 7, st := .recv, tStart := now } else { r with txIdx := r.txIdx + 1 } := by
  by_cases h : r.txIdx = 6
  · rw [Regs.sent_of_last h, if_pos h]
  · rw [Regs.sent_of_ne h, if_neg h]

/-- Settles O14: SEND offers `cmd_buf[tx_idx]`; with a ready transport the byte joins those sent and the index moves. -/
theorem sendStepMovesOneByte : Obligations.SendStepMovesOneByte := by
  intro s hidx hst hr
  have htx : (s.outs s.coming).txValid = true := Regs.txValid_of_send hst hr
  have hdata : (s.outs s.coming).txData = s.regs.cmdBuf[s.regs.txIdx.toNat] := Regs.txData_of_valid htx hidx
  have hpop : (s.outs s.coming).rxPop = false := Regs.rxPop_of_ne_recv (by simp [hst])
  refine ⟨htx, hdata, hpop, ?_⟩
  have hnext := (Regs.next_of_send (T := Config.timeoutMs) (p := s.pins s.coming) hr hst).trans (Regs.sendStep_of_index hidx)
  rw [step_of_busy (by simp [hst]), State.edge_eq_advanced rfl hnext, System.queueAfter_of_not_pop hpop]
  by_cases hready : s.coming.txReady = true
  · rw [System.sentAfter_of_transfer htx hready, hdata, if_pos hready, System.pins_txReady, if_pos hready, Regs.sent_eq_ite]
    rfl
  · rw [System.sentAfter_of_not_ready (by simpa using hready), if_neg hready, System.pins_txReady, if_neg hready]

end Sys2Proof.Machine
end

section
/-! PROOFS. A RECV step that takes no byte (41_receive_check.md R122, R123): the exit to CHECK, and waiting. -/

namespace Sys2Proof.Machine

variable {w : Nat}

/-- R122: once the loop exits no byte is taken, whether one is there or not. -/
theorem Regs.rxPop_of_exits {r : Regs w} {T : Nat} {p : Pins w} (h : r.exits T p.nowMs = true) : r.rxPop T p = false := by
  simp [Regs.rxPop, h]

theorem Regs.rxPop_of_not_avail {r : Regs w} {T : Nat} {p : Pins w} (h : p.rxAvail = false) : r.rxPop T p = false := by
  simp [Regs.rxPop, h]

theorem Regs.recvStep_of_exits {r : Regs w} {T : Nat} {p : Pins w} (h : r.exits T p.nowMs = true) :
    r.recvStep T p = .ok { r with st := .check } :=
  if_pos h

theorem Regs.recvStep_of_not_avail {r : Regs w} {T : Nat} {p : Pins w} (hexit : r.exits T p.nowMs = false)
    (havail : p.rxAvail = false) : r.recvStep T p = .ok r := by
  simp [Regs.recvStep, hexit, havail]

/-- `rx_avail` is 0 in a step whose queue is empty. -/
theorem System.pins_rxAvail_of_empty {s : System w} {e : EnvStep w} (h : s.rxq ++ e.arrivals = []) :
    (s.pins e).rxAvail = false := by
  rw [System.pins_rxAvail, System.queue, h]
  rfl

/-- A RECV step that takes no byte changes the registers as `recvStep` says and queues the arrivals, nothing else. -/
theorem step_of_recv_not_pop {s : State} {r : Regs Config.timeW} (hst : s.regs.st = .recv) (hr : s.coming.rst = false)
    (hrecv : s.regs.recvStep Config.timeoutMs (s.pins s.coming) = .ok r) (hpop : (s.outs s.coming).rxPop = false) :
    step s = .next (s.advanced r (s.rxq ++ s.coming.arrivals) s.txq) := by
  rw [step_of_busy (by simp [hst])]
  exact State.edge_of_quiet rfl ((Regs.next_of_recv hr hst).trans hrecv) hpop (Regs.txValid_eq_false (.inl (by simp [hst])))

/-- Settles O17: the hypothesis is the exit condition of R121, under which no byte is popped and only `st` is written. -/
theorem recvExitsWhenFullOrLate : Obligations.RecvExitsWhenFullOrLate := by
  intro s hst hr h
  have hexit : s.regs.exits Config.timeoutMs (s.pins s.coming).nowMs = true := Regs.exits_eq_true_iff.mpr h
  have hpop : (s.outs s.coming).rxPop = false := Regs.rxPop_of_exits hexit
  exact ⟨hpop, step_of_recv_not_pop hst hr (Regs.recvStep_of_exits hexit) hpop⟩

/-- Settles O18: the exit condition is false and `rx_avail` is 0, so RECV waits. -/
theorem recvWaitsWithoutAByte : Obligations.RecvWaitsWithoutAByte := by
  intro s hst hr hcnt htime hempty
  have hexit : s.regs.exits Config.timeoutMs (s.pins s.coming).nowMs = false := Regs.exits_eq_false_iff.mpr ⟨hcnt, htime⟩
  have havail : (s.pins s.coming).rxAvail = false := System.pins_rxAvail_of_empty hempty
  have hpop : (s.outs s.coming).rxPop = false := Regs.rxPop_of_not_avail havail
  have hstep := step_of_recv_not_pop hst hr (Regs.recvStep_of_not_avail hexit havail) hpop
  rw [hempty] at hstep
  exact ⟨hpop, hstep⟩

end Sys2Proof.Machine
end

section
/-! PROOFS. A step in CHECK (41_receive_check.md R127 to R130): each of the four checks under its own condition, in the order of
R206. -/

namespace Sys2Proof.Machine

variable {w : Nat}

/-- R74: the bytes the checksum covers, written out. -/
theorem Regs.rxSummed_eq (r : Regs w) : r.rxSummed = [r.rxBuf[0], r.rxBuf[1], r.rxBuf[2], r.rxBuf[3], r.rxBuf[4]] :=
  List.ext_getElem (by simp [Regs.rxSummed]) fun i _ hi => by
    have hi : i < 5 := hi
    interval_cases i <;> simp [Regs.rxSummed]

theorem Regs.checkStep_of_short {r : Regs w} (h : r.rxCnt.toNat < 6) :
    r.checkStep = .ok (r.finish (if r.rxCnt = 0 then .timeout else .framing) 0) :=
  if_pos h

theorem Regs.checkStep_of_wrong_sum {r : Regs w} (hcnt : r.rxCnt = 6) (hsum : cs8 r.rxSummed ≠ r.rxBuf[5]) :
    r.checkStep = .ok (r.finish .checksum 0) := by
  simp [Regs.checkStep, hcnt, hsum]

theorem Regs.checkStep_of_wrong_tag {r : Regs w} (hcnt : r.rxCnt = 6) (hsum : cs8 r.rxSummed = r.rxBuf[5])
    (htag : r.rxBuf[0] ≠ r.expTag) : r.checkStep = .ok (r.finish .tagMismatch 0) := by
  simp [Regs.checkStep, hcnt, hsum, htag]

theorem Regs.checkStep_of_valid {r : Regs w} (hcnt : r.rxCnt = 6) (hsum : cs8 r.rxSummed = r.rxBuf[5])
    (htag : r.rxBuf[0] = r.expTag) : r.checkStep = .ok (r.finish .ok r.rxPayload) := by
  simp [Regs.checkStep, hcnt, hsum, htag]

/-- A CHECK step that ends with an outcome writes it, the data, `done` and IDLE; it sends and takes nothing. -/
theorem step_of_check {s : State} {outcome : Status} {data : BitVec 32} (hst : s.regs.st = .check)
    (hr : s.coming.rst = false) (hcheck : s.regs.checkStep = .ok (s.regs.finish outcome data)) :
    step s = .next (s.advanced { s.regs with resData := data, status := outcome, done := true, st := .idle }
      (s.rxq ++ s.coming.arrivals) s.txq) := by
  rw [step_of_busy (by simp [hst])]
  exact State.edge_of_quiet rfl ((Regs.next_of_check hr hst).trans hcheck) (Regs.rxPop_of_ne_recv (by simp [hst]))
    (Regs.txValid_eq_false (.inl (by simp [hst])))

/-- Settles O23: the length check comes first, so no byte of the buffer is read. -/
theorem shortFrameTimesOutOrFrames : Obligations.ShortFrameTimesOutOrFrames :=
  fun _ hst hr hcnt => step_of_check hst hr (Regs.checkStep_of_short hcnt)

/-- Settles O24: the checksum check comes before the tag check. -/
theorem wrongSumGivesChecksumError : Obligations.WrongSumGivesChecksumError := by
  intro s hst hr hcnt hsum
  rw [← Regs.rxSummed_eq] at hsum
  exact step_of_check hst hr (Regs.checkStep_of_wrong_sum hcnt hsum)

/-- Settles O25: the sum is right, so the tag decides. -/
theorem wrongTagGivesTagMismatch : Obligations.WrongTagGivesTagMismatch := by
  intro s hst hr hcnt hsum htag
  rw [← Regs.rxSummed_eq] at hsum
  exact step_of_check hst hr (Regs.checkStep_of_wrong_tag hcnt hsum htag)

/-- Settles O26: every check passes, and the data are the frame's payload. -/
theorem validFrameGivesItsData : Obligations.ValidFrameGivesItsData := by
  intro s hst hr hcnt hsum htag
  rw [← Regs.rxSummed_eq] at hsum
  exact step_of_check hst hr (Regs.checkStep_of_valid hcnt hsum htag)

end Sys2Proof.Machine
end

section
/-! PROOFS. The value decodes (43_value_decode.md R170 to R174): each data byte as a quotient of the data word, so that the decodes are
quotients too. -/

namespace Sys2Proof.Machine

/-- R170: the data bytes of `{d0, d1, d2, d3}`, without `d3`, which no decode reads. -/
@[simp] theorem dataByte_zero_word32 (d0 d1 d2 d3 : Byte) : dataByte (word32 d0 d1 d2 d3) 0 = d0 := by
  rw [dataByte, word32, BitVec.extractLsb'_append_eq_of_le (by decide),
    BitVec.extractLsb'_append_eq_of_le (by decide)]
  exact BitVec.extractLsb'_append_eq_left

@[simp] theorem dataByte_one_word32 (d0 d1 d2 d3 : Byte) : dataByte (word32 d0 d1 d2 d3) 1 = d1 := by
  rw [dataByte, word32, BitVec.extractLsb'_append_eq_of_le (by decide),
    BitVec.extractLsb'_append_eq_of_le (by decide)]
  exact BitVec.extractLsb'_append_eq_right

@[simp] theorem dataByte_two_word32 (d0 d1 d2 d3 : Byte) : dataByte (word32 d0 d1 d2 d3) 2 = d2 := by
  rw [dataByte, word32, BitVec.extractLsb'_append_eq_of_le (by decide)]
  exact BitVec.extractLsb'_append_eq_right

@[simp] theorem hi16_word32 (d0 d1 d2 d3 : Byte) : hi16 (word32 d0 d1 d2 d3) = 256 * d0.toNat + d1.toNat := by
  simp [hi16, Nat.mul_comm]

theorem dataByte_toNat (d : BitVec 32) (k : Nat) : (dataByte d k).toNat = d.toNat / 2 ^ (24 - 8 * k) % 256 := by
  rw [dataByte, BitVec.extractLsb'_toNat, Nat.shiftRight_eq_div_pow]

/-- R54, R170: `hi16` is `res_data[31:16]`. -/
theorem hi16_eq_extractLsb' (d : BitVec 32) : hi16 d = (d.extractLsb' 16 16).toNat := by
  simp only [hi16, dataByte_toNat, BitVec.extractLsb'_toNat, Nat.shiftRight_eq_div_pow]
  omega

theorem hi16_le (d : BitVec 32) : hi16 d ≤ 65535 := by
  rw [hi16_eq_extractLsb']
  exact Nat.le_of_lt_succ (BitVec.isLt _)

theorem dataByte_le (d : BitVec 32) (k : Nat) : (dataByte d k).toNat ≤ 255 := Nat.le_of_lt_succ (BitVec.isLt _)

theorem decivolts_le (d : BitVec 32) : decivolts d ≤ 655605 := by
  have hhi := hi16_le d
  have hd2 := dataByte_le d 2
  rw [decivolts]
  omega

theorem centiamps_le (d : BitVec 32) : centiamps d ≤ 6553755 := by
  have hhi := hi16_le d
  have hd2 := dataByte_le d 2
  rw [centiamps]
  omega

theorem decodeVoltage_eq_decivolts_div (d : BitVec 32) : decodeVoltage d = (decivolts d : Rat) / 10 := by
  rw [decodeVoltage, decivolts]
  push_cast
  ring

theorem decodeCurrent_eq_centiamps_div (d : BitVec 32) : decodeCurrent d = (centiamps d : Rat) / 100 := by
  rw [decodeCurrent, centiamps]
  push_cast
  ring

theorem decivolts_word32 (d0 d1 d2 d3 : Byte) :
    decivolts (word32 d0 d1 d2 d3) = 10 * (256 * d0.toNat + d1.toNat) + d2.toNat := by
  rw [decivolts, hi16_word32, dataByte_two_word32]

theorem centiamps_word32 (d0 d1 d2 d3 : Byte) :
    centiamps (word32 d0 d1 d2 d3) = 100 * (256 * d0.toNat + d1.toNat) + d2.toNat := by
  rw [centiamps, hi16_word32, dataByte_two_word32]

/-- R174: the energy is `res_data[31:8]`. -/
theorem decodeEnergy_eq_extractLsb' (d : BitVec 32) : decodeEnergy d = (d.extractLsb' 8 24).toNat := by
  simp only [decodeEnergy, dataByte_toNat, BitVec.extractLsb'_toNat, Nat.shiftRight_eq_div_pow]
  omega

theorem decodeEnergy_le (d : BitVec 32) : decodeEnergy d ≤ 16777215 := by
  rw [decodeEnergy_eq_extractLsb']
  exact Nat.le_of_lt_succ (BitVec.isLt _)

/-- Settles O49: each value is its numerator over 10 or 100, and the numerator is `hi16` and `d2` of the word. -/
theorem voltageAndCurrentAreExact : Obligations.VoltageAndCurrentAreExact := by
  intro d0 d1 d2 d3
  have hvolts := decivolts_word32 d0 d1 d2 d3
  have hamps := centiamps_word32 d0 d1 d2 d3
  have hvoltage := decodeVoltage_eq_decivolts_div (word32 d0 d1 d2 d3)
  have hcurrent := decodeCurrent_eq_centiamps_div (word32 d0 d1 d2 d3)
  rw [hvolts] at hvoltage
  rw [hamps] at hcurrent
  exact ⟨hvoltage, hvolts, decivolts_le _, hcurrent, hamps, centiamps_le _⟩

/-- Settles O50: both decodes are slices of the word, and a slice is below two to its width. -/
theorem powerAndEnergyAreExact : Obligations.PowerAndEnergyAreExact := fun d =>
  ⟨hi16_eq_extractLsb' d, hi16_le d, decodeEnergy_eq_extractLsb' d, decodeEnergy_le d⟩

end Sys2Proof.Machine
end

section
/-! PROOFS. The opcode map and the two decoders (30_encoding.md R70 to R81): a request and a command frame each decode back to the
instruction they stand for. -/

namespace Sys2Proof

/-! ### Requests -/

theorem Operation.isOperation_decode (op : Operation) (a : Addr) (p : Byte) :
    (Request.decode ⟨op.opcode, a, p⟩).isOperation = true := by
  cases op <;> rfl

/-- R78: each of the six operations has a legal command byte. -/
theorem Instr.exists_operation {i : Instr} (h : i.isOperation = true) :
    ∃ op, Operation.ofByte? i.request.cmd = some op := by
  cases i with
  | rdv a => exact ⟨.readVoltage, rfl⟩
  | rdi a => exact ⟨.readCurrent, rfl⟩
  | rdp a => exact ⟨.readPower, rfl⟩
  | rde a => exact ⟨.readEnergy, rfl⟩
  | setaddr a => exact ⟨.setAddress, rfl⟩
  | setalarm a p => exact ⟨.setAlarm, rfl⟩
  | cmdReserved c a p => cases h

theorem Instr.wellFormed_of_isOperation {i : Instr} (h : i.isOperation = true) : i.wellFormed = true := by
  cases i with
  | cmdReserved c a p => cases h
  | _ => rfl

theorem Request.decode_of_reserved {r : Request} (h : Operation.ofByte? r.cmd = none) :
    r.decode = .cmdReserved r.cmd r.addr r.payload := by
  simp [Request.decode, h]

theorem Instr.decode_request {i : Instr} (h : i.wellFormed = true) : i.request.decode = i := by
  cases i with
  | cmdReserved c a p =>
    exact Request.decode_of_reserved (r := ⟨c, a, p⟩) (Operation.ofByte?_eq_none (by simpa [Instr.wellFormed] using h))
  | _ => rfl

/-- Settles O1: the six operations by their command bytes, the reserved row because its byte selects no operation. -/
theorem requestDecodesToItsInstruction : Obligations.RequestDecodesToItsInstruction :=
  fun _ => Instr.decode_request

/-! ### Command frames -/

/-- R54, R71: the address bytes, joined in wire order, are the address. -/
theorem word32_addrByte (a : Addr) : word32 (addrByte a 0) (addrByte a 1) (addrByte a 2) (addrByte a 3) = a := by
  simp only [word32, addrByte]
  rw [BitVec.extractLsb'_append_extractLsb'_eq_extractLsb' (by decide),
    BitVec.extractLsb'_append_extractLsb'_eq_extractLsb' (by decide),
    BitVec.extractLsb'_append_extractLsb'_eq_extractLsb' (by decide)]
  exact BitVec.extractLsb'_eq_self

@[simp] theorem dataByte_three_word32 (d0 d1 d2 d3 : Byte) : Machine.dataByte (word32 d0 d1 d2 d3) 3 = d3 :=
  BitVec.extractLsb'_append_eq_right

/-- R54: an address byte is cut out of its word as a data byte is out of `res_data`. -/
theorem addrByte_eq_dataByte (a : Addr) (k : Nat) : addrByte a k = Machine.dataByte a k := rfl

/-- R103: the frame of an address given by its four bytes. -/
theorem encodeCommand_word32 (c a0 a1 a2 a3 p : Byte) :
    (encodeCommand c (word32 a0 a1 a2 a3) p).toList = [c, a0, a1, a2, a3, p, cs8 [c, a0, a1, a2, a3, p]] := by
  simp [encodeCommand_toList, addrByte_eq_dataByte]

/-- R81: the encoding of an operation is the frame of its request. -/
theorem Instr.encode_eq {i : Instr} {op : Operation} (h : Operation.ofByte? i.request.cmd = some op)
    (hi : i.isOperation = true) :
    i.encode = (encodeCommand op.opcode i.request.addr (op.payload i.request.payload)).toList := by
  cases i with
  | cmdReserved c a p => cases hi
  | _ => cases h; rfl

theorem decodeFrame_frame {op : Operation} {a0 a1 a2 a3 p : Byte} (hp : op.payload p = p) :
    decodeFrame [op.opcode, a0, a1, a2, a3, p, cs8 [op.opcode, a0, a1, a2, a3, p]] =
      .ok (Request.decode ⟨op.opcode, word32 a0 a1 a2 a3, p⟩) := by
  simp [decodeFrame, hp]

/-- What the frame decoder accepts: seven bytes of one of the six operations, with its payload and the sum of the first six. -/
theorem decodeFrame_eq_ok {bytes : List Byte} {i : Instr} (h : decodeFrame bytes = .ok i) :
    ∃ (op : Operation) (a0 a1 a2 a3 p : Byte), op.payload p = p ∧
      bytes = [op.opcode, a0, a1, a2, a3, p, cs8 [op.opcode, a0, a1, a2, a3, p]] ∧
      i = Request.decode ⟨op.opcode, word32 a0 a1 a2 a3, p⟩ := by
  unfold decodeFrame at h
  split at h
  · next c a0 a1 a2 a3 p k =>
    cases hop : Operation.ofByte? c with
    | none => simp [hop] at h
    | some op =>
      obtain rfl := Operation.opcode_of_ofByte? hop
      simp only [hop] at h
      split at h
      · cases h
      · next hsum =>
        split at h
        · cases h
        · next hpay =>
          exact ⟨op, a0, a1, a2, a3, p, not_not.mp hpay, by rw [not_not.mp hsum], (Except.ok.inj h).symm⟩
  · cases h

/-- Settles O2: the encoding is the frame of the request, the decoder reads the request back, and it decodes to the instruction. -/
theorem frameDecodesToItsInstruction : Obligations.FrameDecodesToItsInstruction := by
  intro i hi
  obtain ⟨op, hop⟩ := Instr.exists_operation hi
  have hcmd : op.opcode = i.request.cmd := Operation.opcode_of_ofByte? hop
  have hpay : op.payload i.request.payload = i.request.payload := by
    cases i with
    | cmdReserved c a p => cases hi
    | _ => cases hop; rfl
  rw [Instr.encode_eq hop hi, encodeCommand_toList, decodeFrame_frame (Operation.payload_payload op _), word32_addrByte, hpay,
    hcmd]
  exact congrArg _ (Instr.decode_request (Instr.wellFormed_of_isOperation hi))

/-- Settles O3: the accepted bytes are those of an operation's frame, and its request presents the same command byte, address and
payload. -/
theorem acceptedFrameIsTheEncoding : Obligations.AcceptedFrameIsTheEncoding := by
  intro bytes i h
  obtain ⟨op, a0, a1, a2, a3, p, hp, rfl, rfl⟩ := decodeFrame_eq_ok h
  have hi := Operation.isOperation_decode op (word32 a0 a1 a2 a3) p
  refine ⟨hi, ?_⟩
  rw [Instr.encode_eq (op := op) (by simp [Operation.request_decode]) hi, Operation.request_decode, Operation.payload_payload,
    encodeCommand_word32, hp]

/-- Settles O4: seven words written out, each read by one of the two decoders. -/
theorem wordsOfTheSpecDecode : Obligations.WordsOfTheSpecDecode :=
  ⟨rfl, by decide, by decide, rfl, by decide, rfl, by decide⟩

/-- R78: the legal command bytes are the interval from 0xB0 to 0xB5. -/
theorem legalCommand_iff {c : Byte} : legalCommand c = true ↔ 0xB0 ≤ c.toNat ∧ c.toNat ≤ 0xB5 := by
  simp [legalCommand, BitVec.le_def]

/-- R78: the legal command bytes are those that select an operation. -/
theorem legalCommand_eq_isSome (c : Byte) : legalCommand c = (Operation.ofByte? c).isSome := by
  revert c
  decide

theorem Operation.legal_of_ofByte? {c : Byte} {op : Operation} (h : Operation.ofByte? c = some op) :
    0xB0 ≤ c.toNat ∧ c.toNat ≤ 0xB5 := by
  rw [← legalCommand_iff, legalCommand_eq_isSome, h]
  rfl

/-- R77: the tag is the command byte less 0x10. -/
theorem Operation.tag_eq_sub (op : Operation) : op.tag = op.opcode - 0x10 := by
  cases op <;> rfl

/-- R77: the tag is the command byte with bit 4 cleared. -/
theorem Operation.tag_eq_and (op : Operation) : op.tag = op.opcode &&& 0xEF := by
  cases op <;> rfl

/-- Settles O5: the bytes that select an operation are the legal ones, and the tag is read off the six rows. -/
theorem legalCommandBytesAndTheirTags : Obligations.LegalCommandBytesAndTheirTags := by
  intro c
  refine ⟨by rw [← legalCommand_eq_isSome, legalCommand_iff], fun op hop => ?_⟩
  obtain rfl := Operation.opcode_of_ofByte? hop
  exact ⟨rfl, op.tag_eq_sub, op.tag_eq_and⟩

end Sys2Proof
end

section
/-! PROOFS. The checksum (40_checksum_encode_send.md R100 to R102): it is the sum of the bytes in the ring of bytes, from which its
algebra follows. -/

namespace Sys2Proof

/-- R100: truncating the sum of the bytes is adding them modulo 256. -/
theorem cs8_eq_sum (bs : List Byte) : cs8 bs = bs.sum := by
  induction bs with
  | nil => rfl
  | cons b bs ih =>
    rw [List.sum_cons, ← ih, cs8, List.map_cons, List.sum_cons, BitVec.ofNat_add, BitVec.ofNat_toNat, BitVec.setWidth_eq]
    rfl

/-- R101: the low byte of a 16-bit accumulation that has begun with `acc`. -/
theorem setWidth_foldl_add (bs : List Byte) (acc : BitVec 16) :
    (bs.foldl (fun (acc : BitVec 16) b => acc + b.setWidth 16) acc).setWidth 8 = acc.setWidth 8 + cs8 bs := by
  induction bs generalizing acc with
  | nil => simp [cs8_eq_sum]
  | cons b bs ih =>
    rw [List.foldl_cons, ih, BitVec.setWidth_add _ _ (by decide), BitVec.setWidth_setWidth_of_le _ (by decide),
      BitVec.setWidth_eq, cs8_eq_sum, cs8_eq_sum, List.sum_cons, add_assoc]

/-- Settles O6: keeping the low byte commutes with adding. -/
theorem sixteenBitAccumulationGivesTheChecksum : Obligations.SixteenBitAccumulationGivesTheChecksum := fun bs =>
  (setWidth_foldl_add bs 0).trans (by simp)

/-- Settles O7: a sum in a commutative ring does not see the order of its terms. -/
theorem checksumIsCommutativeAndAdditive : Obligations.ChecksumIsCommutativeAndAdditive := by
  refine ⟨fun s t h => ?_, fun s t b k => ?_⟩
  · rw [cs8_eq_sum, cs8_eq_sum, h.sum_eq]
  · simp only [cs8_eq_sum, List.sum_append, List.sum_cons]
    abel

/-- Replacing one byte by another one changes the checksum. -/
theorem cs8_set_ne {bs : List Byte} {i : Nat} {b : Byte} (hi : i < bs.length) (hb : b ≠ bs[i]) :
    cs8 (bs.set i b) ≠ cs8 bs := by
  rw [cs8_eq_sum, cs8_eq_sum, List.sum_set', dif_pos hi, neg_add_eq_sub, ne_eq, add_eq_left, sub_eq_zero]
  exact hb

/-- Replacing any one byte of a checksum-valid response frame by another one breaks the frame's checksum. -/
theorem cs8_ne_of_set {f : Vector Byte 6} {i : Nat} {b : Byte} (hi : i < 6) (hb : b ≠ f[i])
    (hf : cs8 (f.toList.take 5) = f[5]) : cs8 ((f.set i b).toList.take 5) ≠ (f.set i b)[5] := by
  rw [Vector.toList_set, List.take_set]
  by_cases h5 : i = 5
  · subst h5
    rw [List.set_eq_of_length_le (by simp), hf, Vector.getElem_set_self]
    exact hb.symm
  · rw [Vector.getElem_set_ne _ _ h5, ← hf]
    exact cs8_set_ne (by simp; omega) (by simpa using hb)

/-- Settles O8: a flipped bit makes another byte of it. -/
theorem singleBitErrorsAreDetected : Obligations.SingleBitErrorsAreDetected := by
  intro f i j hf
  have hbit : (1#8 <<< j.val) ≠ 0 := by
    revert j
    decide
  exact cs8_ne_of_set i.isLt (fun h => hbit (xor_left_eq_self_iff.mp h)) hf

end Sys2Proof
end

section
/-! PROOFS. Fetching, decoding and executing a request is one clock edge of the block on its raw ports (00_scope.md R7, 30_encoding.md
R78), so that a step is one edge, and what an edge answers says what a step does. -/

namespace Sys2Proof.Machine

variable {w : Nat}

/-! ### The fetched request and the ports -/

/-- A request on the ports, decoded and presented again, is accepted or refused alike: all it may lose is a payload that its
operation does not send. -/
theorem System.idleStep_redecode {s : System w} {e : EnvStep w} (hv : e.reqValid = true) :
    s.regs.idleStep (s.pins (e.withRequest (Request.decode ⟨e.reqCmd, e.reqAddr, e.reqPayload⟩).request)) =
      s.regs.idleStep (s.pins e) := by
  cases hop : Operation.ofByte? e.reqCmd with
  | none =>
    rw [Request.decode_of_reserved hop, Regs.idleStep_of_reserved (p := s.pins e) hv hop]
    exact Regs.idleStep_of_reserved rfl hop
  | some op =>
    rw [Regs.idleStep_of_operation (p := s.pins e) hv hop, ← Operation.opcode_of_ofByte? hop, Operation.request_decode,
      Regs.idleStep_of_operation rfl (Operation.ofByte?_opcode op), Regs.accept_eq_latched, Regs.accept_eq_latched]
    simp

/-- No port but the request ports carries a request, so an edge depends on it through the next registers only. -/
theorem System.edge_withRequest_of_next {s : System w} {e : EnvStep w} {T : Nat} {q : Request}
    (h : s.regs.next T (s.pins (e.withRequest q)) = s.regs.next T (s.pins e)) : s.edge (e.withRequest q) T = s.edge e T := by
  unfold System.edge
  rw [h]
  rfl

/-- R5, R7: a step of the system is one clock edge, whether it fetches a request or not. -/
theorem System.step_eq_edge (s : System w) (T : Nat) : s.step T = s.edge s.coming T := by
  by_cases hst : s.regs.st = .idle
  · cases hr : s.coming.rst
    · cases hv : s.coming.reqValid
      · rw [System.step, System.fetch_eq_none_of_no_request hv]
      · rw [System.step, System.fetch_eq_some hst hr hv]
        refine System.edge_withRequest_of_next ?_
        rw [Regs.next_of_idle hr hst, Regs.next_of_idle (by simpa using hr) hst, System.idleStep_redecode hv]
    · rw [System.step, System.fetch_eq_none_of_reset hr]
  · exact System.step_of_busy hst

/-! ### The machine of the fixed names -/

theorem outcome_eq_next_iff {o : Except Fault (System Config.timeW)} {t : State} :
    outcome o = .next t ↔ o = .ok t.toSystem := by
  cases o with
  | error f => simp [outcome]
  | ok u => exact ⟨fun h => congrArg Except.ok (congrArg State.toSystem (Host.Outcome.next.inj h)),
      fun h => congrArg (fun v => Host.Outcome.next (State.mk v)) (Except.ok.inj h)⟩

theorem outcome_eq_fault_iff {o : Except Fault (System Config.timeW)} {f : Fault} :
    outcome o = .fault f ↔ o = .error f := by
  cases o <;> simp [outcome]

/-- The machine's step is the system's at the defaults, in the host's form. -/
theorem step_eq_outcome (s : State) : step s = outcome (s.toSystem.step Config.timeoutMs) := by
  unfold step System.step
  cases s.fetch with
  | none => rfl
  | some i => exact exec_eq_present i s

theorem step_eq_edge (s : State) : step s = s.edge s.coming :=
  (step_eq_outcome s).trans (congrArg outcome (System.step_eq_edge s.toSystem Config.timeoutMs))

/-- A step answers exactly when the block does, and then with the state one edge later. -/
theorem step_eq_next_iff {s t : State} :
    step s = .next t ↔ ∃ r, s.regs.next Config.timeoutMs (s.pins s.coming) = .ok r ∧
      t = s.advanced r (s.queueAfter s.coming) (s.sentAfter s.coming) := by
  rw [step_eq_edge]
  exact State.edge_eq_next_iff

theorem step_of_next {s : State} {r : Regs Config.timeW} (h : s.regs.next Config.timeoutMs (s.pins s.coming) = .ok r) :
    step s = .next (s.advanced r (s.queueAfter s.coming) (s.sentAfter s.coming)) :=
  step_eq_next_iff.mpr ⟨r, h, rfl⟩

theorem step_eq_fault_iff {s : State} {f : Fault} :
    step s = .fault f ↔ s.regs.next Config.timeoutMs (s.pins s.coming) = .error f := by
  rw [step_eq_edge, State.edge_eq_fault_iff]

theorem step_ne_refused (s : State) (x : Refusal) : step s ≠ .refused x := by
  rw [step_eq_edge]
  exact State.edge_ne_refused

theorem exec_ne_refused (i : Instr) (s : State) (x : Refusal) : exec i s ≠ .refused x := by
  rw [exec_eq_present, State.present_eq_edge]
  exact State.edge_ne_refused

/-- Settles O55: a fetched request runs as the edge that presents it, which is the edge on the raw ports. -/
theorem systemStepIsOneClockEdge : Obligations.SystemStepIsOneClockEdge := fun _ T s => System.step_eq_edge s T

/-- Settles O32: the system's edge at the defaults. -/
theorem stepIsOneClockEdge : Obligations.StepIsOneClockEdge := step_eq_edge

/-- Settles O53: the host's form of an outcome loses nothing of it. -/
theorem stepIsTheSystemStepAtTheDefaults : Obligations.StepIsTheSystemStepAtTheDefaults := by
  refine fun s => ⟨fun t => ?_, fun f => ?_, fun i t => ?_⟩
  · rw [step_eq_outcome]
    exact outcome_eq_next_iff
  · rw [step_eq_outcome]
    exact outcome_eq_fault_iff
  · rw [exec_eq_present]
    exact outcome_eq_next_iff

/-! ### Placed words and presented operations -/

/-- A table word that decodes is placed as a request that decodes to the same instruction. -/
theorem exists_request_of_decodeTableWord {nbits word : Nat} {i : Instr} (h : decodeTableWord nbits word = some i) :
    ∃ q, requestOfBytes? (tableWordBytes nbits word) = some q ∧ q.decode = i :=
  Option.map_eq_some_iff.mp h

theorem State.withFetchWord_of_request {s : State} {nbits word : Nat} {q : Request}
    (h : requestOfBytes? (tableWordBytes nbits word) = some q) :
    s.withFetchWord nbits word =
      { s with regs := { s.regs with st := .idle }, inputs := EnvStep.presenting q :: s.inputs } := by
  simp [State.withFetchWord, State.placing, h]

/-- Settles O31: a request in IDLE is fetched as what it decodes to, and a placed word is such a request. -/
theorem stepRunsTheFetchedInstruction : Obligations.StepRunsTheFetchedInstruction := by
  refine ⟨fun s => step_of_request, fun s nbits word i h => ?_⟩
  obtain ⟨q, hq, rfl⟩ := exists_request_of_decodeTableWord h
  rw [State.withFetchWord_of_request hq]
  exact step_of_request rfl rfl rfl

/-- R104: accepting an operation's instruction, with what it latches written out. -/
theorem exec_latched {s : State} (op : Operation) {i : Instr} (hst : s.regs.st = .idle) (hr : s.coming.rst = false)
    (hop : Operation.ofByte? i.request.cmd = some op) :
    exec i s = .next (s.advanced
      (s.regs.latched (wireFrame op.opcode i.request.addr (op.payload i.request.payload)) op.tag)
      (s.rxq ++ s.coming.arrivals) s.txq) := by
  rw [exec_of_operation hst hr hop, Regs.accept_eq_latched]

/-- Settles O10: the four read operations' rows of the table, none of which sends a payload. -/
theorem readRequestsComplete : Obligations.ReadRequestsComplete := fun _ _ hst hr =>
  ⟨exec_latched .readVoltage hst hr rfl, exec_latched .readCurrent hst hr rfl, exec_latched .readPower hst hr rfl,
    exec_latched .readEnergy hst hr rfl⟩

/-- Settles O11: the two set operations' rows, of which only SETALARM sends its payload. -/
theorem setRequestsComplete : Obligations.SetRequestsComplete := fun _ _ _ hst hr =>
  ⟨exec_latched .setAddress hst hr rfl, exec_latched .setAlarm hst hr rfl⟩

end Sys2Proof.Machine
end

section
/-! PROOFS. The register invariants (10_state.md R35): every operation of the block keeps them, none of its steps stops under them,
and so every step of the system answers with registers that meet them. -/

namespace Sys2Proof.Machine

variable {w : Nat}

theorem Regs.Inv.reset (w : Nat) : (Regs.reset w).Inv where
  count_le := Nat.zero_le 6
  guard_count h := by cases h
  done_idle _ := rfl
  done_status := by simp
  send_index h := by cases h
  sent_index h := by rcases h with h | h <;> cases h
  data_zero _ := rfl
  frame_checksum := rfl
  busy_tag h := absurd rfl h

/-- R104: an accepted request's frame carries its checksum, and the tag is that of its command byte. -/
theorem Regs.Inv.accept (r : Regs w) (op : Operation) (a : Addr) (p : Byte) : (r.accept op a p).Inv where
  count_le := Nat.zero_le 6
  guard_count _ := rfl
  done_idle h := by cases h
  done_status := by simp
  send_index _ := Nat.zero_le 6
  sent_index h := by rcases h with h | h <;> cases h
  data_zero _ := rfl
  frame_checksum := rfl
  busy_tag _ := ⟨op.tag_eq_sub, op.legalCommand_opcode⟩

theorem Regs.Inv.refuse {r : Regs w} (h : r.Inv) (hst : r.st = .idle) : r.refuse.Inv :=
  { h with
    done_idle := fun _ => hst
    done_status := by simp
    data_zero := fun _ => rfl }

/-- R107, R108: below index 6 the index moves within the frame; the last byte moves it to 7 and leaves SEND. -/
theorem Regs.Inv.sent {r : Regs w} (h : r.Inv) (hst : r.st = .send) (now : BitVec w) : (r.sent now).Inv := by
  have hbusy : r.st ≠ .idle := by simp [hst]
  have hdone : r.done = false := by simpa using mt h.done_idle hbusy
  by_cases h6 : r.txIdx = 6
  · rw [Regs.sent_of_last h6]
    exact { h with
      done_idle := fun hd => by simp [hdone] at hd
      send_index := fun hs => by cases hs
      sent_index := fun _ => rfl
      busy_tag := fun _ => h.busy_tag hbusy }
  · rw [Regs.sent_of_ne h6]
    have hle := h.send_index hst
    refine { h with
      send_index := fun _ => ?_
      sent_index := fun hs => by simp [hst] at hs }
    show (r.txIdx + 1).toNat ≤ 6
    bv_omega

theorem Regs.Inv.toCheck {r : Regs w} (h : r.Inv) (hst : r.st = .recv) : ({ r with st := .check } : Regs w).Inv := by
  have hbusy : r.st ≠ .idle := by simp [hst]
  have hdone : r.done = false := by simpa using mt h.done_idle hbusy
  exact { h with
    done_idle := fun hd => by simp [hdone] at hd
    send_index := fun hs => by cases hs
    sent_index := fun _ => h.sent_index (.inl hst)
    busy_tag := fun _ => h.busy_tag hbusy }

/-- R124, R125: a byte is stored below index 6, and no byte taken leaves the guard set. -/
theorem Regs.Inv.take {r r' : Regs w} {b : Byte} (h : r.Inv) (ht : r.take b = .ok r') : r'.Inv := by
  rcases Regs.take_eq_ok ht with ⟨-, -, rfl⟩ | ⟨-, hlt, rfl⟩
  · exact { h with guard_count := fun hg => by cases hg }
  · refine { h with
      count_le := ?_
      guard_count := fun hg => by cases hg }
    show (r.rxCnt + 1).toNat ≤ 6
    bv_omega

/-- R127 to R131: an outcome of CHECK marks itself, and only OK carries data. -/
theorem Regs.Inv.finish {r : Regs w} (h : r.Inv) {o : Status} {d : BitVec 32} (ho : o ≠ .none) (hd : o ≠ .ok → d = 0) :
    (r.finish o d).Inv :=
  { h with
    done_idle := fun _ => rfl
    done_status := by simp [ho]
    send_index := fun hs => by cases hs
    sent_index := fun hs => by rcases hs with hs | hs <;> cases hs
    data_zero := hd
    busy_tag := fun hs => absurd rfl hs }

theorem Regs.Inv.idleStep {r : Regs w} (h : r.Inv) (hst : r.st = .idle) (p : Pins w) : (r.idleStep p).Inv := by
  rcases r.idleStep_cases p with ⟨-, heq⟩ | ⟨-, op, -, heq⟩ | ⟨-, -, heq⟩ <;> rw [heq]
  · exact h
  · exact .accept r op _ _
  · exact h.refuse hst

/-- R131: CHECK ends with one of the five outcomes, and with data only for OK. -/
theorem Regs.exists_checkStep {r : Regs w} (h : r.rxCnt.toNat ≤ 6) :
    ∃ (o : Status) (d : BitVec 32), r.checkStep = .ok (r.finish o d) ∧ o ≠ .none ∧ o ≠ .badOp ∧ (o ≠ .ok → d = 0) := by
  by_cases hlt : r.rxCnt.toNat < 6
  · refine ⟨_, 0, Regs.checkStep_of_short hlt, ?_⟩
    split <;> simp
  · have hcnt : r.rxCnt = 6 := by bv_omega
    by_cases hsum : cs8 r.rxSummed = r.rxBuf[5]
    · by_cases htag : r.rxBuf[0] = r.expTag
      · exact ⟨.ok, r.rxPayload, Regs.checkStep_of_valid hcnt hsum htag, by simp⟩
      · exact ⟨.tagMismatch, 0, Regs.checkStep_of_wrong_tag hcnt hsum htag, by simp⟩
    · exact ⟨.checksum, 0, Regs.checkStep_of_wrong_sum hcnt hsum, by simp⟩

theorem Regs.exists_finish_of_checkStep {r r' : Regs w} (h : r.checkStep = .ok r') :
    ∃ (o : Status) (d : BitVec 32), r' = r.finish o d := by
  rcases Regs.checkStep_eq_ok h with ⟨-, rfl⟩ | ⟨-, -, rfl⟩ | ⟨-, -, -, rfl⟩ | ⟨-, -, -, rfl⟩ <;> exact ⟨_, _, rfl⟩

/-- R125: below index 6 every byte can be taken. -/
theorem Regs.exists_take {r : Regs w} (h : r.rxCnt.toNat < 6) (b : Byte) : ∃ r', r.take b = .ok r' := by
  unfold Regs.take
  split
  · exact ⟨_, rfl⟩
  · exact ⟨_, Regs.store_of_lt h⟩

theorem Regs.Inv.exists_recvStep {r : Regs w} (h : r.Inv) (T : Nat) (p : Pins w) : ∃ r', r.recvStep T p = .ok r' := by
  cases hexit : r.exits T p.nowMs
  · cases havail : p.rxAvail
    · exact ⟨r, Regs.recvStep_of_not_avail hexit havail⟩
    · have hne := (Regs.exits_eq_false_iff.mp hexit).1
      have hle := h.count_le
      obtain ⟨r', hr'⟩ := Regs.exists_take (r := r) (by bv_omega) p.rxData
      exact ⟨r', by simp [Regs.recvStep, hexit, havail, hr']⟩
  · exact ⟨_, Regs.recvStep_of_exits hexit⟩

/-- R50: under the invariants no index leaves a buffer, so the block's step answers. -/
theorem Regs.Inv.exists_next {r : Regs w} (h : r.Inv) (T : Nat) (p : Pins w) : ∃ r', r.next T p = .ok r' := by
  cases hr : p.rst
  · cases hst : r.st
    · exact ⟨_, Regs.next_of_idle hr hst⟩
    · have hidx := h.send_index hst
      exact ⟨_, (Regs.next_of_send hr hst).trans (Regs.sendStep_of_index (by omega))⟩
    · rw [Regs.next_of_recv hr hst]
      exact h.exists_recvStep T p
    · obtain ⟨o, d, hcheck, -⟩ := Regs.exists_checkStep h.count_le
      exact ⟨_, (Regs.next_of_check hr hst).trans hcheck⟩
  · exact ⟨_, Regs.next_of_reset hr⟩

/-- R35: every step of the block keeps the invariants. -/
theorem Regs.Inv.next {r r' : Regs w} {T : Nat} {p : Pins w} (h : r.Inv) (hnext : r.next T p = .ok r') : r'.Inv := by
  rcases Regs.next_eq_ok hnext with ⟨-, rfl⟩ | ⟨-, hst, rfl⟩ | ⟨-, hst, hsend⟩ | ⟨-, hst, hrecv⟩ | ⟨-, hst, hcheck⟩
  · exact .reset w
  · exact h.idleStep hst p
  · rcases Regs.sendStep_eq_ok hsend with ⟨-, ⟨-, rfl⟩ | ⟨-, rfl⟩⟩
    · exact h.sent hst _
    · exact h
  · rcases Regs.recvStep_eq_ok hrecv with ⟨-, rfl⟩ | ⟨-, -, rfl⟩ | ⟨-, -, htake⟩
    · exact h.toCheck hst
    · exact h
    · exact h.take htake
  · obtain ⟨o, d, hfin, ho, -, hd⟩ := Regs.exists_checkStep h.count_le
    obtain rfl := Except.ok.inj (hfin.symm.trans hcheck)
    exact h.finish ho hd

/-- A clock edge of the system under the invariants. -/
theorem System.exists_edge {s : System w} (h : s.regs.Inv) (e : EnvStep w) (T : Nat) :
    ∃ t, s.edge e T = .ok t ∧ t.regs.Inv := by
  obtain ⟨r, hr⟩ := h.exists_next T (s.pins e)
  exact ⟨_, System.edge_eq_ok_iff.mpr ⟨r, hr, rfl⟩, h.next hr⟩

/-- Settles O34: a step is a step of the block, which keeps the invariants in every control state. -/
theorem stepKeepsTheRegisterInvariants : Obligations.StepKeepsTheRegisterInvariants := by
  intro s t h hstep
  obtain ⟨r, hr, rfl⟩ := step_eq_next_iff.mp hstep
  exact h.next hr

/-- Settles O56: the step is one edge, which answers and keeps the invariants. -/
theorem systemStepKeepsTheRegisterInvariants : Obligations.SystemStepKeepsTheRegisterInvariants := by
  intro w T s h
  rw [System.step_eq_edge]
  exact System.exists_edge h s.coming T

/-- Settles O36: step and exec are both clock edges. -/
theorem noStepStopsUnderTheInvariants : Obligations.NoStepStopsUnderTheInvariants := by
  intro s h
  have hedge (e : EnvStep Config.timeW) : ∃ t, s.edge e = .next t := by
    obtain ⟨t, ht, -⟩ := System.exists_edge h e Config.timeoutMs
    exact ⟨⟨t⟩, outcome_eq_next_iff.mpr ht⟩
  refine ⟨?_, fun i => ?_⟩
  · rw [step_eq_edge]
    exact hedge s.coming
  · rw [exec_eq_present]
    exact hedge (s.coming.withRequest i.request)

/-- In IDLE nothing is claimed of the bytes sent. -/
theorem State.SentInv.of_idle {s : State} (h : s.regs.st = .idle) : s.SentInv where
  sending hs := by simp [h] at hs
  sent hs := by simp [h] at hs

/-- Settles O33: the reset values meet the invariants, and the block is in IDLE. -/
theorem resetStateMeetsTheInvariants : Obligations.ResetStateMeetsTheInvariants :=
  ⟨.reset _, .of_idle rfl⟩

end Sys2Proof.Machine
end

section
/-! PROOFS. Sending (40_checksum_encode_send.md R107 to R109, 70_reset_and_hazards.md R238): what a step adds to the bytes sent, the
sent-frame invariant, and runs inside SEND. -/

namespace Sys2Proof.Machine

variable {w : Nat}

/-! ### One step -/

theorem System.sentAfter_of_not_send {s : System w} {e : EnvStep w} {T : Nat} (h : s.regs.st ≠ .send ∨ e.rst = true) :
    s.sentAfter e T = s.txq :=
  System.sentAfter_of_not_valid (Regs.txValid_eq_false h)

theorem System.sentAfter_of_send {s : System w} {e : EnvStep w} {T : Nat} (hst : s.regs.st = .send) (hr : e.rst = false)
    (hready : e.txReady = true) (hidx : s.regs.txIdx.toNat < 7) :
    s.sentAfter e T = s.txq ++ [s.regs.cmdBuf[s.regs.txIdx.toNat]] := by
  have htx : (s.outs e T).txValid = true := Regs.txValid_of_send hst hr
  rw [System.sentAfter_of_transfer htx hready]
  exact congrArg (s.txq ++ [·]) (Regs.txData_of_valid htx hidx)

/-- A completed SEND step has an index below 7. -/
theorem Regs.txIdx_lt_of_sendStep {r r' : Regs w} {p : Pins w} (h : r.sendStep p = .ok r') : r.txIdx.toNat < 7 := by
  have hne := (Regs.sendStep_eq_ok h).1
  bv_omega

/-- Settles O16: only a transfer in SEND adds to the bytes sent, and it adds the byte at the index. -/
theorem onlyTheCommandFrameIsTransmitted : Obligations.OnlyTheCommandFrameIsTransmitted := by
  intro s t hstep
  obtain ⟨r, hr, rfl⟩ := step_eq_next_iff.mp hstep
  by_cases hsend : s.regs.st = .send ∧ s.coming.rst = false ∧ s.coming.txReady = true
  · obtain ⟨hst, hrst, hready⟩ := hsend
    have hidx := Regs.txIdx_lt_of_sendStep ((Regs.next_of_send hrst hst).symm.trans hr)
    exact .inr ⟨hst, hrst, hready, hidx, System.sentAfter_of_send hst hrst hready hidx⟩
  · refine .inl ?_
    by_cases hready : s.coming.txReady = true
    · refine System.sentAfter_of_not_send (not_or_of_imp fun hst => ?_)
      simpa [hst, hready] using hsend
    · exact System.sentAfter_of_not_ready (by simpa using hready)

/-! ### The sent-frame invariant -/

/-- One more byte of the frame, sent after those before it. -/
theorem take_succ_suffix {l sent : List Byte} {i : Nat} (hi : i < l.length) (h : l.take i <:+ sent) :
    l.take (i + 1) <:+ sent ++ [l[i]] := by
  rw [List.take_succ_eq_append_getElem hi]
  exact (List.suffix_append_inj_of_length_eq rfl).mpr ⟨h, rfl⟩

/-- Outside SEND the invariant is about the whole frame. -/
theorem State.SentInv.of_whole {s : State} (hst : s.regs.st ≠ .send) (h : s.regs.cmdBuf.toList <:+ s.txq) : s.SentInv where
  sending hs := absurd hs hst
  sent _ := h

/-- R108, R109: a transfer moves the index past the byte it sends, and the last one completes the frame. -/
theorem State.SentInv.after_transfer {s t : State} (h : s.SentInv) (hst : s.regs.st = .send) (hidx : s.regs.txIdx.toNat < 7)
    {now : BitVec Config.timeW} (hregs : t.regs = s.regs.sent now)
    (htxq : t.txq = s.txq ++ [s.regs.cmdBuf[s.regs.txIdx.toNat]]) : t.SentInv := by
  have hsuffix : s.regs.cmdBuf.toList.take (s.regs.txIdx.toNat + 1) <:+ t.txq := by
    rw [htxq]
    exact take_succ_suffix (l := s.regs.cmdBuf.toList) (by simpa using hidx) (h.sending hst)
  by_cases h6 : s.regs.txIdx = 6
  · rw [Regs.sent_of_last h6] at hregs
    refine .of_whole (by simp [hregs]) ?_
    rw [List.take_of_length_le (by simp [h6])] at hsuffix
    simpa [hregs] using hsuffix
  · rw [Regs.sent_of_ne h6] at hregs
    have hsucc : (s.regs.txIdx + 1).toNat = s.regs.txIdx.toNat + 1 := by bv_omega
    refine ⟨fun _ => ?_, fun hs => by simp [hregs, hst] at hs⟩
    rw [hregs, hsucc]
    exact hsuffix

/-- A step in RECV writes `st`, the receive buffer with its count, and the guard, nothing else, and stays in RECV or leaves it for
CHECK. -/
theorem Regs.recvStep_frame {r r' : Regs w} {T : Nat} {p : Pins w} (hst : r.st = .recv) (h : r.recvStep T p = .ok r') :
    r' = { r with st := r'.st, rxBuf := r'.rxBuf, rxCnt := r'.rxCnt, leadGuard := r'.leadGuard } ∧
      (r'.st = .recv ∨ r'.st = .check) := by
  rcases Regs.recvStep_eq_ok h with ⟨-, rfl⟩ | ⟨-, -, rfl⟩ | ⟨-, -, htake⟩
  · exact ⟨rfl, .inr rfl⟩
  · exact ⟨rfl, .inl hst⟩
  · rcases Regs.take_eq_ok htake with ⟨-, -, rfl⟩ | ⟨-, -, rfl⟩ <;> exact ⟨rfl, .inl hst⟩

/-- Settles O35: acceptance starts the frame, each transfer extends it, and after SEND neither the frame nor the bytes sent change. -/
theorem stepKeepsTheSentFrameInvariant : Obligations.StepKeepsTheSentFrameInvariant := by
  intro s t _ h hstep
  obtain ⟨r, hnext, rfl⟩ := step_eq_next_iff.mp hstep
  rcases Regs.next_eq_ok hnext with ⟨-, rfl⟩ | ⟨-, hst, rfl⟩ | ⟨hr, hst, hsend⟩ | ⟨-, hst, hrecv⟩ | ⟨-, -, hcheck⟩
  · exact .of_idle rfl
  · rcases s.regs.idleStep_cases (s.pins s.coming) with ⟨-, heq⟩ | ⟨-, op, -, heq⟩ | ⟨-, -, heq⟩ <;> rw [heq]
    · exact .of_idle hst
    · exact ⟨fun _ => List.nil_suffix, fun hs => by rcases hs with hs | hs <;> cases hs⟩
    · exact .of_idle hst
  · have hidx := Regs.txIdx_lt_of_sendStep hsend
    rcases Regs.sendStep_eq_ok hsend with ⟨-, ⟨hready, rfl⟩ | ⟨hready, rfl⟩⟩
    · exact h.after_transfer hst hidx rfl (System.sentAfter_of_send hst hr hready hidx)
    · rw [System.sentAfter_of_not_ready hready]
      exact ⟨h.sending, h.sent⟩
  · obtain ⟨hframe, hst'⟩ := Regs.recvStep_frame hst hrecv
    rw [System.sentAfter_of_not_send (.inl (by simp [hst]))]
    refine .of_whole (fun hs => ?_) ?_
    · rcases hst' with hst' | hst' <;> cases hst'.symm.trans hs
    · rw [State.advanced_regs, hframe]
      exact h.sent (.inl hst)
  · obtain ⟨o, d, rfl⟩ := Regs.exists_finish_of_checkStep hcheck
    exact .of_idle rfl

/-! ### Runs inside SEND -/

@[simp] theorem arrivalsOf_nil : arrivalsOf ([] : List (EnvStep w)) = [] := rfl

@[simp] theorem arrivalsOf_cons (e : EnvStep w) (es : List (EnvStep w)) :
    arrivalsOf (e :: es) = e.arrivals ++ arrivalsOf es := rfl

@[simp] theorem arrivalsOf_append (es fs : List (EnvStep w)) : arrivalsOf (es ++ fs) = arrivalsOf es ++ arrivalsOf fs :=
  List.flatMap_append

/-- R107, R108: a ready transport takes the byte. -/
theorem step_of_transfer {s : State} (hst : s.regs.st = .send) (hr : s.coming.rst = false) (hready : s.coming.txReady = true)
    (hidx : s.regs.txIdx.toNat < 7) :
    step s = .next (s.advanced (s.regs.sent s.nowMs) (s.rxq ++ s.coming.arrivals)
      (s.txq ++ [s.regs.cmdBuf[s.regs.txIdx.toNat]])) := by
  obtain ⟨-, -, -, hstep⟩ := sendStepMovesOneByte s hidx hst hr
  rw [hstep, if_pos hready, Regs.sent_eq_ite]

theorem step_of_send_wait {s : State} (hst : s.regs.st = .send) (hr : s.coming.rst = false) (hready : s.coming.txReady = false)
    (hidx : s.regs.txIdx.toNat < 7) : step s = .next (s.advanced s.regs (s.rxq ++ s.coming.arrivals) s.txq) := by
  obtain ⟨-, -, -, hstep⟩ := sendStepMovesOneByte s hidx hst hr
  rw [hstep, if_neg (by simp [hready])]

/-- Settles O46: by induction on the steps, each of which waits. -/
theorem sendWaitsForTheTransportForever : Obligations.SendWaitsForTheTransportForever := by
  intro s es
  induction es generalizing s with
  | nil => intro rest _ _ _ _; exact ⟨s, rfl, rfl, rfl, by simp⟩
  | cons e es ih =>
    intro rest hst hidx hin hes
    obtain ⟨he, hes⟩ := List.forall_mem_cons.mp hes
    have hcoming : s.coming = e := System.coming_cons hin
    have hstep := step_of_send_wait hst (by rw [hcoming]; exact he.1) (by rw [hcoming]; exact he.2) hidx
    obtain ⟨t, hrun, hregs, htxq, hrxq⟩ := ih (s.advanced s.regs (s.rxq ++ s.coming.arrivals) s.txq) rest hst hidx (by simp [hin]) hes
    exact ⟨t, (run_succ_of_next hstep).trans hrun, hregs, htxq, by simp [hrxq, hcoming]⟩

/-- The rest of the frame goes out in as many ready steps as there are bytes left, and the window opens at the time of the last. -/
theorem exists_run_of_ready {s : State} {es rest : List (EnvStep Config.timeW)} (hst : s.regs.st = .send) (hne : es ≠ [])
    (hlen : s.regs.txIdx.toNat + es.length = 7) (hin : s.inputs = es ++ rest)
    (hes : ∀ e ∈ es, e.rst = false ∧ e.txReady = true) :
    ∃ t : State, run es.length s = .next t ∧
      t.regs = { s.regs with txIdx := 7, st := .recv, tStart := t.now } ∧
      t.txq = s.txq ++ s.regs.cmdBuf.toList.drop s.regs.txIdx.toNat ∧ t.rxq = s.rxq ++ arrivalsOf es ∧ t.inputs = rest := by
  induction es generalizing s with
  | nil => exact absurd rfl hne
  | cons e es ih =>
    obtain ⟨he, hes⟩ := List.forall_mem_cons.mp hes
    have hcoming : s.coming = e := System.coming_cons hin
    rw [List.length_cons] at hlen
    have hidx : s.regs.txIdx.toNat < 7 := by omega
    have hdrop : s.regs.cmdBuf.toList.drop s.regs.txIdx.toNat =
        s.regs.cmdBuf[s.regs.txIdx.toNat] :: s.regs.cmdBuf.toList.drop (s.regs.txIdx.toNat + 1) :=
      List.drop_eq_getElem_cons (l := s.regs.cmdBuf.toList) (by simpa using hidx)
    have hstep := step_of_transfer hst (by rw [hcoming]; exact he.1) (by rw [hcoming]; exact he.2) hidx
    rw [List.length_cons, run_succ_of_next hstep, hdrop]
    by_cases h6 : s.regs.txIdx = 6
    · obtain rfl : es = [] := List.eq_nil_of_length_eq_zero (by simp [h6] at hlen; omega)
      refine ⟨_, run_zero _, ?_, ?_, ?_, ?_⟩
      · rw [State.advanced_regs, Regs.sent_of_last h6]
        rfl
      · simp [h6]
      · simp [hcoming]
      · simp [hin]
    · have hsucc : (s.regs.txIdx + 1).toNat = s.regs.txIdx.toNat + 1 := by bv_omega
      rw [Regs.sent_of_ne h6]
      obtain ⟨t, hrun, hregs, htxq, hrxq, hrest⟩ := ih
        (s := s.advanced { s.regs with txIdx := s.regs.txIdx + 1 } (s.rxq ++ s.coming.arrivals)
          (s.txq ++ [s.regs.cmdBuf[s.regs.txIdx.toNat]]))
        hst (fun h => h6 (by subst h; simp at hlen; bv_omega)) (by rw [State.advanced_regs, hsucc]; omega) (by simp [hin]) hes
      refine ⟨t, hrun, hregs, ?_, by simp [hrxq, hcoming], hrest⟩
      rw [htxq, State.advanced_regs, hsucc]
      simp

/-- Settles O42: the whole frame is the rest of it from index 0. -/
theorem sevenReadyStepsSendTheFrame : Obligations.SevenReadyStepsSendTheFrame := by
  intro s es rest hst hidx hin hlen hes
  obtain ⟨t, hrun, hregs, htxq, hrxq, hrest⟩ :=
    exists_run_of_ready hst (List.ne_nil_of_length_pos (by omega)) (by simp [hidx, hlen]) hin hes
  exact ⟨t, hlen ▸ hrun, hregs, by simpa [hidx] using htxq, hrxq, hrest⟩

end Sys2Proof.Machine
end

section
/-! PROOFS. Receiving (20_memory.md R53, 41_receive_check.md R120 to R126, 70_reset_and_hazards.md R239): the receive ports, what a
step in RECV can do, and the open window. -/

namespace Sys2Proof.Machine

variable {w : Nat}

/-! ### The receive ports -/

theorem System.pins_rxAvail_iff {s : System w} {e : EnvStep w} : (s.pins e).rxAvail = true ↔ s.rxq ++ e.arrivals ≠ [] := by
  rw [System.pins_rxAvail, System.queue, Bool.not_eq_true', List.isEmpty_eq_false_iff]

theorem System.pins_rxData_of_cons {s : System w} {e : EnvStep w} {b : Byte} {rest : List Byte}
    (h : s.rxq ++ e.arrivals = b :: rest) : (s.pins e).rxData = b := by
  rw [System.pins_rxData, System.queue, h]
  rfl

/-- R126: the one condition of `rx_pop`. -/
theorem Regs.rxPop_eq_true_iff {r : Regs w} {T : Nat} {p : Pins w} :
    r.rxPop T p = true ↔ r.st = .recv ∧ p.rst = false ∧ r.exits T p.nowMs = false ∧ p.rxAvail = true := by
  simp [Regs.rxPop, and_assoc]

theorem System.queueAfter_of_pop {s : System w} {e : EnvStep w} {T : Nat} (h : (s.outs e T).rxPop = true) :
    s.queueAfter e T = (s.rxq ++ e.arrivals).tail :=
  if_pos h

/-- Settles O21: the condition of `rx_pop`, with the exit condition and `rx_avail` written out. -/
theorem byteIsConsumedOnlyInAnOpenWindow : Obligations.ByteIsConsumedOnlyInAnOpenWindow := by
  intro s e
  have hpop : (s.outs e).rxPop = true ↔ _ := Regs.rxPop_eq_true_iff
  rw [hpop, Regs.exits_eq_false_iff, System.pins_rxAvail_iff]
  exact ⟨fun ⟨hst, hr, ⟨hcnt, htime⟩, hq⟩ => ⟨hst, hr, hq, hcnt, htime⟩,
    fun ⟨hst, hr, hq, hcnt, htime⟩ => ⟨hst, hr, ⟨hcnt, htime⟩, hq⟩⟩

/-- Settles O22: `rx_pop` needs `rx_avail`, and the queue loses its head with it and nothing without. -/
theorem receiveStreamIsAFifo : Obligations.ReceiveStreamIsAFifo := by
  intro s
  have havail : (s.outs s.coming).rxPop = true → (s.pins s.coming).rxAvail = true := by
    intro hpop
    obtain ⟨-, -, -, havail⟩ := Regs.rxPop_eq_true_iff.mp hpop
    exact havail
  refine ⟨System.pins_rxAvail_iff, fun _ _ => System.pins_rxData_of_cons, havail, fun t hstep => ?_⟩
  obtain ⟨r, -, rfl⟩ := step_eq_next_iff.mp hstep
  refine ⟨fun hpop => ?_, System.queueAfter_of_not_pop⟩
  obtain ⟨b, rest, hq⟩ := List.exists_cons_of_ne_nil (System.pins_rxAvail_iff.mp (havail hpop))
  rw [State.advanced_rxq, System.queueAfter_of_pop hpop, hq]
  exact ⟨b, rfl⟩

/-! ### One step in RECV -/

theorem Regs.take_of_guarded_zero {r : Regs w} {b : Byte} (h : r.leadGuard = true ∧ b = 0x00) :
    r.take b = .ok { r with leadGuard := false } :=
  if_pos h

theorem Regs.take_of_not_guarded {r : Regs w} {b : Byte} (h : ¬(r.leadGuard = true ∧ b = 0x00)) : r.take b = r.store b :=
  if_neg h

theorem Regs.recvStep_of_avail {r : Regs w} {T : Nat} {p : Pins w} (hexit : r.exits T p.nowMs = false)
    (havail : p.rxAvail = true) : r.recvStep T p = r.take p.rxData := by
  simp [Regs.recvStep, hexit, havail]

/-- A RECV step that takes a byte changes the registers as `take` says and removes the queue's head, nothing else. -/
theorem step_of_recv_pop {s : State} {r : Regs Config.timeW} {b : Byte} {rest : List Byte}
    (hpop : (s.outs s.coming).rxPop = true) (hq : s.rxq ++ s.coming.arrivals = b :: rest) (htake : s.regs.take b = .ok r) :
    step s = .next (s.advanced r rest s.txq) := by
  obtain ⟨hst, hr, hexit, havail⟩ := Regs.rxPop_eq_true_iff.mp hpop
  have hnext : s.regs.next Config.timeoutMs (s.pins s.coming) = .ok r := by
    rw [Regs.next_of_recv hr hst, Regs.recvStep_of_avail hexit havail, System.pins_rxData_of_cons hq, htake]
  rw [step_of_next hnext, System.queueAfter_of_pop hpop, hq, System.sentAfter_of_not_send (.inl (by simp [hst]))]
  rfl

/-- Settles O19: the exit condition is false and `rx_avail` is 1, so the byte is popped and taken. -/
theorem recvTakesOneByte : Obligations.RecvTakesOneByte := by
  intro s b rest hst hr hcnt htime hq
  have hpop : (s.outs s.coming).rxPop = true :=
    (byteIsConsumedOnlyInAnOpenWindow s s.coming).mpr ⟨hst, hr, by simp [hq], hcnt, htime⟩
  refine ⟨hpop, fun hzero => ?_, fun hlt hzero => ?_⟩
  · exact step_of_recv_pop hpop hq (Regs.take_of_guarded_zero hzero)
  · exact step_of_recv_pop hpop hq ((Regs.take_of_not_guarded hzero).trans (Regs.store_of_lt hlt))

/-- What a completed step in RECV can do: leave for CHECK, wait, or take the queue's head. -/
theorem step_recv_cases {s t : State} (hst : s.regs.st = .recv) (hr : s.coming.rst = false) (hstep : step s = .next t) :
    (s.regs.exits Config.timeoutMs s.nowMs = true ∧
      t = s.advanced { s.regs with st := .check } (s.rxq ++ s.coming.arrivals) s.txq) ∨
    ((s.outs s.coming).rxPop = false ∧ s.rxq ++ s.coming.arrivals = [] ∧ s.regs.exits Config.timeoutMs s.nowMs = false ∧
      t = s.advanced s.regs [] s.txq) ∨
    ((s.outs s.coming).rxPop = true ∧ s.regs.exits Config.timeoutMs s.nowMs = false ∧
      ∃ b rest r, s.rxq ++ s.coming.arrivals = b :: rest ∧ s.regs.take b = .ok r ∧ t = s.advanced r rest s.txq) := by
  obtain ⟨r, hnext, ht⟩ := step_eq_next_iff.mp hstep
  rcases Regs.recvStep_eq_ok ((Regs.next_of_recv hr hst).symm.trans hnext) with
    ⟨hexit, rfl⟩ | ⟨hexit, havail, rfl⟩ | ⟨hexit, havail, htake⟩
  · refine .inl ⟨hexit, Host.Outcome.next.inj (hstep.symm.trans ?_)⟩
    exact step_of_recv_not_pop hst hr (Regs.recvStep_of_exits hexit) (Regs.rxPop_of_exits hexit)
  · have hpop : (s.outs s.coming).rxPop = false := Regs.rxPop_of_not_avail havail
    have hempty : s.rxq ++ s.coming.arrivals = [] := by
      simpa [System.queue] using havail
    refine .inr (.inl ⟨hpop, hempty, hexit, Host.Outcome.next.inj (hstep.symm.trans ?_)⟩)
    rw [step_of_recv_not_pop hst hr (Regs.recvStep_of_not_avail hexit havail) hpop, hempty]
  · have hpop : (s.outs s.coming).rxPop = true := Regs.rxPop_eq_true_iff.mpr ⟨hst, hr, hexit, havail⟩
    obtain ⟨b, rest, hq⟩ := List.exists_cons_of_ne_nil (System.pins_rxAvail_iff.mp havail)
    rw [System.pins_rxData_of_cons hq] at htake
    exact .inr (.inr ⟨hpop, hexit, b, rest, r, hq, htake,
      Host.Outcome.next.inj (hstep.symm.trans (step_of_recv_pop hpop hq htake))⟩)

/-! ### The window -/

/-- R121, R122: a RECV step that stays in RECV did not find the exit condition true. -/
theorem Regs.exits_eq_false_of_recvStep {r r' : Regs w} {T : Nat} {p : Pins w} (h : r.recvStep T p = .ok r')
    (hst : r'.st = .recv) : r.exits T p.nowMs = false := by
  refine Bool.eq_false_iff.mpr fun hexit => ?_
  rw [Regs.recvStep_of_exits hexit] at h
  obtain rfl := Except.ok.inj h
  cases hst

/-- Settles O20: RECV is entered with `t_start` the time shown, and a step that stays in it has not exited. -/
theorem stepLeavesTheWindowOpen : Obligations.StepLeavesTheWindowOpen := by
  refine ⟨fun h => (by cases h), fun s t hstep ht => ?_⟩
  obtain ⟨r, hnext, rfl⟩ := step_eq_next_iff.mp hstep
  rcases Regs.next_eq_ok hnext with ⟨-, rfl⟩ | ⟨-, hst, rfl⟩ | ⟨-, hst, hsend⟩ | ⟨-, hst, hrecv⟩ | ⟨-, -, hcheck⟩
  · cases ht
  · rcases s.regs.idleStep_cases (s.pins s.coming) with ⟨-, heq⟩ | ⟨-, op, -, heq⟩ | ⟨-, -, heq⟩ <;>
      simp [heq, hst] at ht
  · rcases Regs.sendStep_eq_ok hsend with ⟨-, ⟨-, rfl⟩ | ⟨-, rfl⟩⟩
    · by_cases h6 : s.regs.txIdx = 6
      · simp [Regs.sent_of_last h6]
      · simp [Regs.sent_of_ne h6, hst] at ht
    · simp [hst] at ht
  · obtain ⟨hframe, -⟩ := Regs.recvStep_frame hst hrecv
    have hexit := Regs.exits_eq_false_of_recvStep hrecv ht
    rw [State.advanced_now, State.advanced_regs, hframe]
    exact (Regs.exits_eq_false_iff.mp hexit).2
  · obtain ⟨o, d, rfl⟩ := Regs.exists_finish_of_checkStep hcheck
    cases ht

/-- Settles O47: by induction on the steps, each of which shows the same time and finds no byte. -/
theorem recvWaitsForAStoppedClockForever : Obligations.RecvWaitsForAStoppedClockForever := by
  intro s es
  induction es generalizing s with
  | nil => intro rest _ _ hrxq _ _ _; exact ⟨s, rfl, rfl, rfl, hrxq⟩
  | cons e es ih =>
    intro rest hst hcnt hrxq htime hin hes
    obtain ⟨⟨hr, hadv, harr⟩, hes⟩ := List.forall_mem_cons.mp hes
    have hcoming : s.coming = e := System.coming_cons hin
    have hnow : s.now + s.coming.advance = s.now := by simp [hcoming, hadv]
    obtain ⟨-, hstep⟩ := recvWaitsWithoutAByte s hst (by rw [hcoming, hr]) hcnt (by rwa [hnow])
      (by rw [hrxq, hcoming, harr]; rfl)
    obtain ⟨t, hrun, hregs, htxq, hq⟩ := ih (s.advanced s.regs [] s.txq) rest hst hcnt rfl
      (by rwa [State.advanced_now, hnow]) (by simp [hin]) hes
    exact ⟨t, (run_succ_of_next hstep).trans hrun, hregs, htxq, hq⟩

end Sys2Proof.Machine
end

section
/-! PROOFS. Checking (41_receive_check.md R127 to R133), reset (70_reset_and_hazards.md R230 to R232), where a step faults (log 9), and
what moves the control state and the outcome (10_state.md R22, R30). -/

namespace Sys2Proof.Machine

variable {w : Nat}

/-! ### CHECK -/

/-- Settles O27: with at most six bytes one of the five outcomes applies. -/
theorem checkEndsInOneStep : Obligations.CheckEndsInOneStep := by
  intro s hst hr hcnt
  obtain ⟨o, d, hcheck, hnone, hbad, hdata⟩ := Regs.exists_checkStep hcnt
  exact ⟨_, step_of_check hst hr hcheck, rfl, rfl, hnone, hbad, hdata, rfl, rfl⟩

/-- R133: no operation in progress expects the tag 0x00. -/
theorem Regs.Inv.expTag_ne_zero {r : Regs w} (h : r.Inv) (hst : r.st ≠ .idle) : r.expTag ≠ 0 := by
  obtain ⟨htag, hlegal⟩ := h.busy_tag hst
  obtain ⟨hlo, hhi⟩ := legalCommand_iff.mp hlegal
  rw [htag]
  bv_omega

/-- Settles O28: a zero first byte is never the expected tag, so a right sum leaves TAGMISMATCH. -/
theorem zeroTagNeverSucceeds : Obligations.ZeroTagNeverSucceeds := by
  intro s hinv hst hr hcnt hzero
  have htag : s.regs.rxBuf[0] ≠ s.regs.expTag := by
    rw [hzero]
    exact (hinv.expTag_ne_zero (by simp [hst])).symm
  rw [← hzero, ← Regs.rxSummed_eq]
  by_cases hsum : cs8 s.regs.rxSummed = s.regs.rxBuf[5]
  · exact ⟨_, step_of_check hst hr (Regs.checkStep_of_wrong_tag hcnt hsum htag), rfl, (if_pos hsum).symm⟩
  · exact ⟨_, step_of_check hst hr (Regs.checkStep_of_wrong_sum hcnt hsum), rfl, (if_neg hsum).symm⟩

/-! ### Reset -/

theorem Regs.rxPop_of_reset {r : Regs w} {T : Nat} {p : Pins w} (h : p.rst = true) : r.rxPop T p = false := by
  simp [Regs.rxPop, h]

theorem Regs.busy_eq_true_iff {r : Regs w} : r.busy = true ↔ r.st ≠ .idle := by
  simp [Regs.busy]

/-- Settles O29: in a reset step the block ignores every other input, and its ports are quiet. -/
theorem resetOverridesEveryRule : Obligations.ResetOverridesEveryRule := by
  intro s hr
  obtain ⟨hbusy, -⟩ := requestIsNotAcceptedOtherwise
  obtain ⟨hready, -, -⟩ := hbusy s (.rdv 0) (.inr hr)
  obtain ⟨htx, hdata⟩ := transmitOutputsAreQuietOutsideSend s s.coming (.inr hr)
  have hpop : (s.outs s.coming).rxPop = false := Regs.rxPop_of_reset hr
  have hexec (i : Instr) : exec i s = step s := by
    obtain ⟨-, hexec, -⟩ := hbusy s i (.inr hr)
    exact hexec
  refine ⟨?_, hexec, hready, htx, hdata, hpop, Regs.busy_eq_true_iff, rfl, rfl, rfl⟩
  rw [step_of_reset hr]
  exact State.edge_of_quiet rfl (Regs.next_of_reset hr) hpop htx

/-- Settles O30: the reset values are in IDLE with no outcome, and IDLE sends and takes nothing. -/
theorem outputsAfterReset : Obligations.OutputsAfterReset := fun _ =>
  ⟨rfl, rfl, rfl, rfl, rfl, rfl, rfl⟩

/-! ### Faults -/

theorem Regs.sendStep_eq_error_iff {r : Regs w} {p : Pins w} {f : Fault} :
    r.sendStep p = .error f ↔ f = .cmdIndexOutside ∧ r.txIdx = 7 := by
  by_cases h : r.txIdx = 7
  · simp [Regs.sendStep, Regs.cmdByte?_eq_none_iff.mpr h, h, eq_comm]
  · exact iff_of_false (by simp [Regs.sendStep_of_index (r := r) (p := p) (by bv_omega)]) fun hf => h hf.2

theorem Regs.take_eq_error_iff {r : Regs w} {b : Byte} {f : Fault} :
    r.take b = .error f ↔ f = .rxIndexOutside ∧ ¬ r.rxCnt.toNat < 6 ∧ ¬(r.leadGuard = true ∧ b = 0x00) := by
  by_cases hzero : r.leadGuard = true ∧ b = 0x00
  · exact iff_of_false (by simp only [Regs.take_of_guarded_zero hzero, reduceCtorEq, not_false_eq_true])
      fun ⟨_, _, hnot⟩ => hnot hzero
  · rw [Regs.take_of_not_guarded hzero]
    by_cases hlt : r.rxCnt.toNat < 6
    · simp [Regs.store_of_lt hlt, hlt]
    · simp only [Regs.store_of_ge hlt, hlt, hzero, not_false_eq_true, and_true, Except.error.injEq]
      exact eq_comm

theorem Regs.recvStep_eq_error_iff {r : Regs w} {T : Nat} {p : Pins w} {f : Fault} :
    r.recvStep T p = .error f ↔ r.exits T p.nowMs = false ∧ p.rxAvail = true ∧ r.take p.rxData = .error f := by
  cases hexit : r.exits T p.nowMs
  · cases havail : p.rxAvail
    · simp [Regs.recvStep_of_not_avail hexit havail]
    · simp [Regs.recvStep_of_avail hexit havail]
  · simp [Regs.recvStep_of_exits hexit]

theorem Regs.checkStep_eq_error_iff {r : Regs w} {f : Fault} :
    r.checkStep = .error f ↔ f = .rxCountOutside ∧ r.rxCnt = 7 := by
  by_cases h : r.rxCnt = 7
  · simp [Regs.checkStep, h, eq_comm]
  · obtain ⟨o, d, hcheck, -⟩ := Regs.exists_checkStep (r := r) (by bv_omega)
    exact iff_of_false (by simp [hcheck]) fun hf => h hf.2

/-- Log 9: a byte that RECV can take faults only with `rx_cnt = 7`. -/
theorem State.recvStep_eq_error_iff {s : State} {f : Fault} :
    s.regs.recvStep Config.timeoutMs (s.pins s.coming) = .error f ↔
      f = .rxIndexOutside ∧ s.regs.rxCnt = 7 ∧
        (s.now + s.coming.advance - s.regs.tStart).toNat ≤ Config.timeoutMs ∧
        ∃ b rest, s.rxq ++ s.coming.arrivals = b :: rest ∧ ¬(s.regs.leadGuard = true ∧ b = 0x00) := by
  rw [Regs.recvStep_eq_error_iff, Regs.exits_eq_false_iff, Regs.take_eq_error_iff, System.pins_rxAvail_iff]
  constructor
  · rintro ⟨⟨hne, htime⟩, hq, rfl, hge, hzero⟩
    obtain ⟨b, rest, hq⟩ := List.exists_cons_of_ne_nil hq
    rw [System.pins_rxData_of_cons hq] at hzero
    exact ⟨rfl, by bv_omega, htime, b, rest, hq, hzero⟩
  · rintro ⟨rfl, h7, htime, b, rest, hq, hzero⟩
    rw [System.pins_rxData_of_cons hq]
    exact ⟨⟨by simp [h7], htime⟩, by simp [hq], rfl, by simp [h7], hzero⟩

/-- Settles O37: a fault of the step is one of the block's step in SEND, RECV or CHECK. -/
theorem faultsAreExactlyThese : Obligations.FaultsAreExactlyThese := by
  refine fun s => ⟨fun f => ?_, step_ne_refused s, fun i => exec_ne_refused i s⟩
  rw [step_eq_fault_iff]
  cases hr : s.coming.rst
  · cases hst : s.regs.st
    · simp [Regs.next_of_idle (p := s.pins s.coming) hr hst]
    · rw [Regs.next_of_send hr hst, Regs.sendStep_eq_error_iff]
      simp
    · rw [Regs.next_of_recv hr hst, State.recvStep_eq_error_iff]
      simp
    · rw [Regs.next_of_check hr hst, Regs.checkStep_eq_error_iff]
      simp
  · simp [Regs.next_of_reset (p := s.pins s.coming) hr]

/-! ### The control state and the outcome -/

/-- Settles O38: the transitions are read off what the block's step can do in each control state. -/
theorem controlStateTransitions : Obligations.ControlStateTransitions := by
  intro s t hstep
  obtain ⟨r, hnext, rfl⟩ := step_eq_next_iff.mp hstep
  rw [State.advanced_regs]
  rcases Regs.next_eq_ok hnext with ⟨hr, rfl⟩ | ⟨-, hst, rfl⟩ | ⟨-, hst, hsend⟩ | ⟨-, hst, hrecv⟩ | ⟨-, hst, hcheck⟩
  · exact .inr (.inl ⟨hr, rfl⟩)
  · rcases s.regs.idleStep_cases (s.pins s.coming) with ⟨-, heq⟩ | ⟨hv, op, hop, heq⟩ | ⟨-, -, heq⟩ <;> rw [heq]
    · exact .inl rfl
    · exact .inr (.inr (.inl ⟨hst, rfl, hv, Operation.legal_of_ofByte? hop⟩))
    · exact .inl rfl
  · rcases Regs.sendStep_eq_ok hsend with ⟨-, ⟨hready, rfl⟩ | ⟨-, rfl⟩⟩
    · by_cases h6 : s.regs.txIdx = 6
      · exact .inr (.inr (.inr (.inl ⟨hst, by rw [Regs.sent_of_last h6], h6, hready⟩)))
      · exact .inl (by rw [Regs.sent_of_ne h6])
    · exact .inl rfl
  · rcases Regs.recvStep_eq_ok hrecv with ⟨hexit, rfl⟩ | ⟨-, -, rfl⟩ | ⟨-, -, htake⟩
    · exact .inr (.inr (.inr (.inr (.inl ⟨hst, rfl, Regs.exits_eq_true_iff.mp hexit⟩))))
    · exact .inl rfl
    · rcases Regs.take_eq_ok htake with ⟨-, -, rfl⟩ | ⟨-, -, rfl⟩ <;> exact .inl rfl
  · obtain ⟨o, d, rfl⟩ := Regs.exists_finish_of_checkStep hcheck
    exact .inr (.inr (.inr (.inr (.inr ⟨hst, rfl, rfl⟩))))

theorem Regs.sent_outcome (r : Regs w) (now : BitVec w) :
    (r.sent now).status = r.status ∧ (r.sent now).done = r.done ∧ (r.sent now).resData = r.resData := by
  unfold Regs.sent
  split <;> exact ⟨rfl, rfl, rfl⟩

/-- Settles O39: neither SEND nor RECV writes an outcome register, nor IDLE without a request. -/
theorem outcomeIsStableUntilTheNextRequest : Obligations.OutcomeIsStableUntilTheNextRequest := by
  intro s t hstep hr hcheck hidle
  obtain ⟨r, hnext, rfl⟩ := step_eq_next_iff.mp hstep
  rw [State.advanced_regs]
  rcases Regs.next_eq_ok hnext with ⟨hr', -⟩ | ⟨-, hst, rfl⟩ | ⟨-, -, hsend⟩ | ⟨-, hst, hrecv⟩ | ⟨-, hst, -⟩
  · cases hr.symm.trans hr'
  · rw [Regs.idleStep_of_no_request (hidle hst)]
    exact ⟨rfl, rfl, rfl⟩
  · rcases Regs.sendStep_eq_ok hsend with ⟨-, ⟨-, rfl⟩ | ⟨-, rfl⟩⟩
    · exact s.regs.sent_outcome _
    · exact ⟨rfl, rfl, rfl⟩
  · rw [(Regs.recvStep_frame hst hrecv).1]
    exact ⟨rfl, rfl, rfl⟩
  · exact absurd hst hcheck

end Sys2Proof.Machine
end

section
/-! PROOFS. What the block does not read (10_state.md R20, R26, 93_implementation_defined.md section 1): inputs that mean nothing, and
stale entries of the receive buffer. -/

namespace Sys2Proof.Machine

variable {w : Nat}

/-! ### Meaningless inputs -/

/-- The ports act on the registers through `rst` and the step of the control state. -/
theorem Regs.next_congr {r : Regs w} {T : Nat} {p p' : Pins w} (hr : p'.rst = p.rst) (hidle : r.idleStep p' = r.idleStep p)
    (hsend : r.sendStep p' = r.sendStep p) (hrecv : r.recvStep T p' = r.recvStep T p) : r.next T p' = r.next T p := by
  unfold Regs.next
  rw [hr, hidle, hsend, hrecv]

/-- Settles O40: RECV reads `rx_data` under `rx_avail` only, IDLE the request under `req_valid` only, and no output reads either. -/
theorem meaninglessInputsHaveNoEffect : Obligations.MeaninglessInputsHaveNoEffect := by
  refine fun w T r p b c d a k => ⟨fun havail => ⟨?_, rfl⟩, fun hv => ⟨?_, rfl⟩⟩
  · refine Regs.next_congr rfl rfl rfl ?_
    simp [Regs.recvStep, havail]
  · refine Regs.next_congr rfl ?_ rfl rfl
    rw [Regs.idleStep_of_no_request hv]
    exact Regs.idleStep_of_no_request hv

/-! ### Stale entries of the receive buffer -/

/-- Two answers of the block that fault alike or agree but for stale entries. -/
inductive AgreeAfter : Except Fault (Regs w) → Except Fault (Regs w) → Prop where
  | fault (f : Fault) : AgreeAfter (.error f) (.error f)
  | next {t t' : Regs w} : t.agree t' → AgreeAfter (.ok t) (.ok t')

theorem AgreeAfter.error_iff {o o' : Except Fault (Regs w)} (h : AgreeAfter o o') (f : Fault) :
    o = .error f ↔ o' = .error f := by
  cases h <;> simp

theorem AgreeAfter.exists_ok {o o' : Except Fault (Regs w)} (h : AgreeAfter o o') {t : Regs w} (ht : o = .ok t) :
    ∃ t', o' = .ok t' ∧ t.agree t' := by
  cases h with
  | fault f => cases ht
  | next hagree => obtain rfl := Except.ok.inj ht; exact ⟨_, rfl, hagree⟩

/-- A register file with another receive buffer. -/
def Regs.withRxBuf (r : Regs w) (buf : Vector Byte 6) : Regs w := { r with rxBuf := buf }

@[simp] theorem Regs.withRxBuf_rxBuf (r : Regs w) (buf : Vector Byte 6) : (r.withRxBuf buf).rxBuf = buf := rfl
@[simp] theorem Regs.withRxBuf_rxCnt (r : Regs w) (buf : Vector Byte 6) : (r.withRxBuf buf).rxCnt = r.rxCnt := rfl

/-- Register files that agree differ in the buffer alone. -/
theorem Regs.agree.exists_rxBuf {r r' : Regs w} (h : r.agree r') :
    ∃ buf : Vector Byte 6, r' = r.withRxBuf buf ∧ ∀ (i : Nat) (hi : i < 6), i < r.rxCnt.toNat → r.rxBuf[i] = buf[i] :=
  ⟨r'.rxBuf, h.1, h.2⟩

theorem Regs.agree.refl (r : Regs w) : r.agree r := ⟨rfl, fun _ _ _ => rfl⟩

/-- With six bytes collected no entry is stale. -/
theorem Regs.agree.eq_of_full {r r' : Regs w} (h : r.agree r') (hcnt : r.rxCnt = 6) : r' = r := by
  obtain ⟨buf, rfl, hbuf⟩ := h.exists_rxBuf
  have : r.rxBuf = buf := Vector.ext fun i hi => hbuf i hi (by simpa [hcnt] using hi)
  rw [← this]
  rfl

theorem Regs.agree.idleStep {r r' : Regs w} (h : r.agree r') (p : Pins w) : (r.idleStep p).agree (r'.idleStep p) := by
  obtain ⟨buf, rfl, hbuf⟩ := h.exists_rxBuf
  cases hv : p.reqValid
  · rw [Regs.idleStep_of_no_request hv, Regs.idleStep_of_no_request (r := r.withRxBuf buf) hv]
    exact h
  · cases hop : Operation.ofByte? p.reqCmd with
    | none =>
      rw [Regs.idleStep_of_reserved hv hop, Regs.idleStep_of_reserved (r := r.withRxBuf buf) hv hop]
      exact ⟨rfl, hbuf⟩
    | some op =>
      rw [Regs.idleStep_of_operation hv hop, Regs.idleStep_of_operation (r := r.withRxBuf buf) hv hop]
      exact ⟨rfl, fun i _ hi => absurd hi (Nat.not_lt_zero i)⟩

theorem Regs.agree.sent {r r' : Regs w} (h : r.agree r') (now : BitVec w) : (r.sent now).agree (r'.sent now) := by
  obtain ⟨buf, rfl, hbuf⟩ := h.exists_rxBuf
  by_cases h6 : r.txIdx = 6
  · rw [Regs.sent_of_last h6, Regs.sent_of_last (r := r.withRxBuf buf) h6]
    exact ⟨rfl, hbuf⟩
  · rw [Regs.sent_of_ne h6, Regs.sent_of_ne (r := r.withRxBuf buf) h6]
    exact ⟨rfl, hbuf⟩

theorem Regs.agree.sendStep {r r' : Regs w} (h : r.agree r') (p : Pins w) : AgreeAfter (r.sendStep p) (r'.sendStep p) := by
  have htx : r'.txIdx = r.txIdx := by
    obtain ⟨buf, rfl, -⟩ := h.exists_rxBuf
    rfl
  by_cases h7 : r.txIdx = 7
  · rw [Regs.sendStep_eq_error_iff.mpr ⟨rfl, h7⟩, Regs.sendStep_eq_error_iff.mpr ⟨rfl, htx.trans h7⟩]
    exact .fault _
  · have hidx : r.txIdx.toNat < 7 := by bv_omega
    rw [Regs.sendStep_of_index hidx, Regs.sendStep_of_index (by rwa [htx])]
    split
    · exact .next (h.sent _)
    · exact .next h

/-- R125: a stored byte is the same in both buffers, and so are the entries below it. -/
theorem Regs.agree.store {r r' : Regs w} (h : r.agree r') (b : Byte) : AgreeAfter (r.store b) (r'.store b) := by
  obtain ⟨buf, rfl, hbuf⟩ := h.exists_rxBuf
  by_cases hlt : r.rxCnt.toNat < 6
  · rw [Regs.store_of_lt hlt, Regs.store_of_lt (r := r.withRxBuf buf) hlt]
    refine .next ⟨rfl, fun i hi hlt' => ?_⟩
    have hsucc : (r.rxCnt + 1).toNat = r.rxCnt.toNat + 1 := by bv_omega
    rw [hsucc] at hlt'
    by_cases heq : r.rxCnt.toNat = i
    · subst heq
      simp
    · simpa [Vector.getElem_set, heq] using hbuf i hi (by omega)
  · rw [Regs.store_of_ge hlt, Regs.store_of_ge (r := r.withRxBuf buf) hlt]
    exact .fault _

theorem Regs.agree.take {r r' : Regs w} (h : r.agree r') (b : Byte) : AgreeAfter (r.take b) (r'.take b) := by
  obtain ⟨buf, rfl, hbuf⟩ := h.exists_rxBuf
  by_cases hzero : r.leadGuard = true ∧ b = 0x00
  · rw [Regs.take_of_guarded_zero hzero, Regs.take_of_guarded_zero (r := r.withRxBuf buf) hzero]
    exact .next ⟨rfl, hbuf⟩
  · rw [Regs.take_of_not_guarded hzero, Regs.take_of_not_guarded (r := r.withRxBuf buf) hzero]
    exact h.store b

theorem Regs.agree.recvStep {r r' : Regs w} (h : r.agree r') (T : Nat) (p : Pins w) :
    AgreeAfter (r.recvStep T p) (r'.recvStep T p) := by
  obtain ⟨buf, rfl, hbuf⟩ := h.exists_rxBuf
  cases hexit : r.exits T p.nowMs
  · cases havail : p.rxAvail
    · rw [Regs.recvStep_of_not_avail hexit havail, Regs.recvStep_of_not_avail (r := r.withRxBuf buf) hexit havail]
      exact .next h
    · rw [Regs.recvStep_of_avail hexit havail, Regs.recvStep_of_avail (r := r.withRxBuf buf) hexit havail]
      exact h.take _
  · rw [Regs.recvStep_of_exits hexit, Regs.recvStep_of_exits (r := r.withRxBuf buf) hexit]
    exact .next ⟨rfl, hbuf⟩

/-- R127: a short frame is judged by its length alone. -/
theorem Regs.agree.checkStep {r r' : Regs w} (h : r.agree r') : AgreeAfter r.checkStep r'.checkStep := by
  by_cases h6 : r.rxCnt = 6
  · rw [h.eq_of_full h6]
    cases r.checkStep with
    | error f => exact .fault f
    | ok t => exact .next (.refl t)
  · obtain ⟨buf, rfl, hbuf⟩ := h.exists_rxBuf
    by_cases hlt : r.rxCnt.toNat < 6
    · rw [Regs.checkStep_of_short hlt, Regs.checkStep_of_short (r := r.withRxBuf buf) hlt]
      exact .next ⟨rfl, hbuf⟩
    · have h7 : r.rxCnt = 7 := by bv_omega
      rw [Regs.checkStep_eq_error_iff.mpr ⟨rfl, h7⟩, (Regs.checkStep_eq_error_iff (r := r.withRxBuf buf)).mpr ⟨rfl, h7⟩]
      exact .fault _

theorem Regs.agree.next {r r' : Regs w} (h : r.agree r') (T : Nat) (p : Pins w) : AgreeAfter (r.next T p) (r'.next T p) := by
  have hst' : r'.st = r.st := by
    obtain ⟨buf, rfl, -⟩ := h.exists_rxBuf
    rfl
  cases hr : p.rst
  · cases hst : r.st <;> rw [hst] at hst'
    · rw [Regs.next_of_idle hr hst, Regs.next_of_idle hr hst']
      exact .next (h.idleStep p)
    · rw [Regs.next_of_send hr hst, Regs.next_of_send hr hst']
      exact h.sendStep p
    · rw [Regs.next_of_recv hr hst, Regs.next_of_recv hr hst']
      exact h.recvStep T p
    · rw [Regs.next_of_check hr hst, Regs.next_of_check hr hst']
      exact h.checkStep
  · rw [Regs.next_of_reset hr, Regs.next_of_reset hr]
    exact .next (.refl _)

/-- Settles O41: no output reads the buffer, and every step of the block keeps the agreement. -/
theorem staleReceiveEntriesAreNeverRead : Obligations.StaleReceiveEntriesAreNeverRead := by
  intro w T r r' p k h
  refine ⟨?_, fun f => (h.next T p).error_iff f, fun t ht => (h.next T p).exists_ok ht⟩
  obtain ⟨buf, rfl, -⟩ := h.exists_rxBuf
  rfl

end Sys2Proof.Machine
end

section
/-! PROOFS. The readings (43_value_decode.md R175, R177), the read-only view (10_state.md R33), and the bound on TIMEOUT_MS
(00_scope.md R5). -/

namespace Sys2Proof.Machine

variable {w : Nat}

theorem Regs.hasData_eq_true_iff {r : Regs w} : r.hasData = true ↔ r.status = .ok ∧ r.done = true := by
  simp [Regs.hasData]

/-- R175, R177: the ack of a set operation. -/
theorem Regs.reading?_of_set {r : Regs w} (h : r.cmdBuf[0] = 0xB4 ∨ r.cmdBuf[0] = 0xB5) :
    r.reading? = some (.ack (decide (r.status = .ok))) := by
  rcases h with h | h <;> rw [Regs.reading?, h] <;> rfl

/-- R177: no operation but the two set operations has a reading without data. -/
theorem Regs.reading?_of_no_data {r : Regs w} (hset : ¬(r.cmdBuf[0] = 0xB4 ∨ r.cmdBuf[0] = 0xB5)) (hdata : r.hasData = false) :
    r.reading? = none := by
  unfold Regs.reading?
  cases hop : Operation.ofByte? r.cmdBuf[0] with
  | none => rfl
  | some op =>
    rw [← Operation.opcode_of_ofByte? hop] at hset
    cases op with
    | setAddress => exact absurd (.inl rfl) hset
    | setAlarm => exact absurd (.inr rfl) hset
    | _ => simp [hdata]

/-- Settles O51: by the command byte in `cmd_buf[0]`. -/
theorem readingsExistOnlyOnSuccess : Obligations.ReadingsExistOnlyOnSuccess := by
  refine fun w r => ⟨fun c hc hop => ?_, Regs.reading?_of_set, fun hset hdata => ?_, fun hdata => ?_⟩
  · rw [Regs.reading?, hc, hop]
  · exact Regs.reading?_of_no_data hset (Bool.eq_false_iff.mpr (mt Regs.hasData_eq_true_iff.mp hdata))
  · have hdata : r.hasData = true := Regs.hasData_eq_true_iff.mpr hdata
    refine ⟨fun hc => ?_, fun hc => ?_, fun hc => ?_, fun hc => ?_⟩ <;>
      simp [Regs.reading?, hc, hdata, Operation.ofByte?]

/-- R33: the fields of a STATUS byte. -/
theorem statusByte_fields (busy done : Bool) (code : BitVec 3) :
    let view : Byte := 0b000#3 ++ BitVec.ofBool busy ++ BitVec.ofBool done ++ code
    view.extractLsb' 0 3 = code ∧ view.getLsbD 3 = done ∧ view.getLsbD 4 = busy ∧ view.extractLsb' 5 3 = 0 := by
  revert busy done code
  decide

/-- Settles O52: the fields of the STATUS byte, of which busy is "not in IDLE". -/
theorem statusViewShowsTheOutcome : Obligations.StatusViewShowsTheOutcome := by
  intro w r
  obtain ⟨hcode, hdone, hbusy, hzero⟩ := statusByte_fields r.busy r.done r.status.code
  refine ⟨hcode, ?_, ?_, hzero, rfl, rfl⟩
  · rw [Regs.statusView, hdone]
  · rw [Regs.statusView, hbusy, Regs.busy_eq_true_iff]

/-- Settles O54: the elapsed time takes every value below 2^TIME_W, the largest of them one step of the clock before the start of the
window. -/
theorem windowCanExpireExactlyUnderTheBound : Obligations.WindowCanExpireExactlyUnderTheBound := by
  refine ⟨by unfold Config.TimeoutFits; decide, fun w T r hcnt => ⟨fun ⟨now, hexit⟩ => ?_, fun hfits => ?_⟩⟩
  · have hlate := (Regs.exits_eq_true_iff.mp hexit).resolve_left hcnt
    have hlt := (r.elapsed now).isLt
    unfold Config.TimeoutFits
    omega
  · refine ⟨BitVec.allOnes w + r.tStart, Regs.exits_eq_true_iff.mpr (.inr ?_)⟩
    rw [Regs.elapsed, BitVec.add_sub_cancel, BitVec.toNat_allOnes]
    exact hfits

end Sys2Proof.Machine
end

section
/-! PROOFS. RECV ends (41_receive_check.md R134, 70_reset_and_hazards.md R234): once the clock has moved past the window, by whatever
steps, the block has left it. -/

namespace Sys2Proof.Machine

variable {w : Nat}

@[simp] theorem advanceOf_nil : advanceOf ([] : List (EnvStep w)) = 0 := rfl

@[simp] theorem advanceOf_cons (e : EnvStep w) (es : List (EnvStep w)) :
    advanceOf (e :: es) = e.advance.toNat + advanceOf es := by
  simp [advanceOf]

/-- R234: a clock that does not wrap past the start of the window adds its advance to the elapsed time. -/
theorem toNat_add_sub_of_lt {now start adv : BitVec w} (h : (now - start).toNat + adv.toNat < 2 ^ w) :
    (now + adv - start).toNat = (now - start).toNat + adv.toNat := by
  rw [add_sub_right_comm, BitVec.toNat_add, Nat.mod_eq_of_lt h]

/-- The machine's run is the system's at the defaults, in the host's form. -/
theorem run_eq_outcome (k : Nat) (s : State) : run k s = outcome (s.toSystem.run k Config.timeoutMs) := by
  induction k generalizing s with
  | zero => rfl
  | succ k ih =>
    have hstep := step_eq_outcome s
    cases h : s.toSystem.step Config.timeoutMs with
    | error f =>
      rw [h] at hstep
      rw [run_succ_of_fault hstep]
      simp [System.run, h, outcome]
    | ok t =>
      rw [h] at hstep
      rw [run_succ_of_next hstep, ih, System.run_succ_of_ok h]

/-- A step in RECV either has left it or keeps the start of the window, at an elapsed time of at most `T`. -/
theorem System.step_of_recv {s : System w} {T : Nat} {e : EnvStep w} {es : List (EnvStep w)} (hinv : s.regs.Inv)
    (hst : s.regs.st = .recv) (hin : s.inputs = e :: es) (hr : e.rst = false) :
    ∃ t : System w, s.step T = .ok t ∧ t.regs.Inv ∧ t.inputs = es ∧ t.now = s.now + e.advance ∧
      (t.regs.st = .check ∨
        t.regs.st = .recv ∧ t.regs.tStart = s.regs.tStart ∧ (t.now - t.regs.tStart).toNat ≤ T) := by
  obtain ⟨t, ht, htinv⟩ := System.exists_edge hinv e T
  refine ⟨t, by rw [System.step_eq_edge, System.coming_cons hin, ht], htinv, ?_⟩
  obtain ⟨r, hnext, rfl⟩ := System.edge_eq_ok_iff.mp ht
  refine ⟨by simp [hin], rfl, ?_⟩
  have hrecv : s.regs.recvStep T (s.pins e) = .ok r := (Regs.next_of_recv hr hst).symm.trans hnext
  obtain ⟨hframe, hst' | hst'⟩ := Regs.recvStep_frame hst hrecv
  · have hexit := Regs.exits_eq_false_of_recvStep hrecv hst'
    have hstart : r.tStart = s.regs.tStart := by rw [hframe]
    refine .inr ⟨hst', hstart, ?_⟩
    rw [hstart]
    exact (Regs.exits_eq_false_iff.mp hexit).2
  · exact .inl hst'

/-- Settles O57: by induction on the steps; one that stays in RECV has an elapsed time of at most `T`, so the clock still has to
move. -/
theorem receptionEndsOnceTheClockAdvances : Obligations.ReceptionEndsOnceTheClockAdvances := by
  intro w T s es
  induction es generalizing s with
  | nil => intro rest _ _ _ hne; exact absurd rfl hne
  | cons e es ih =>
    intro rest hinv hst hin _ hr hlate hwrap
    obtain ⟨hre, hr⟩ := List.forall_mem_cons.mp hr
    obtain ⟨t, hstep, htinv, htin, hnow, htst | ⟨htst, hstart, hopen⟩⟩ := System.step_of_recv (T := T) hinv hst hin hre
    · exact ⟨1, t, by simp, System.run_succ_of_ok hstep, htst⟩
    · rw [advanceOf_cons, ← Nat.add_assoc] at hlate hwrap
      have helapsed := toNat_add_sub_of_lt (Nat.lt_of_le_of_lt (Nat.le_add_right _ _) hwrap)
      rw [← helapsed, ← hnow, ← hstart] at hlate hwrap
      have hne : es ≠ [] := by
        rintro rfl
        rw [advanceOf_nil] at hlate
        omega
      obtain ⟨k, u, hk, hrun, hu⟩ := ih t rest htinv htst htin hne hr hlate hwrap
      exact ⟨k + 1, u, by simpa using hk, (System.run_succ_of_ok hstep).trans hrun, hu⟩

theorem advanceOf_eq_length {es : List (EnvStep Config.timeW)} (h : ∀ e ∈ es, e.advance = 1) : advanceOf es = es.length := by
  induction es with
  | nil => rfl
  | cons e es ih =>
    obtain ⟨he, hes⟩ := List.forall_mem_cons.mp h
    simp [he, ih hes, Nat.add_comm]

/-- Settles O45: TIMEOUT_MS + 1 steps of one millisecond move the clock past the window. -/
theorem receptionEndsWithinTheWindow : Obligations.ReceptionEndsWithinTheWindow := by
  intro s es rest hinv hst hnow hin hlen hes
  have hadv : (s.now - s.regs.tStart).toNat + advanceOf es = Config.timeoutMs + 1 := by
    rw [advanceOf_eq_length fun e he => (hes e he).2, hlen, hnow]
    simp
  obtain ⟨k, t, hk, hrun, ht⟩ := receptionEndsOnceTheClockAdvances _ Config.timeoutMs s.toSystem es rest hinv hst hin
    (List.ne_nil_of_length_pos (by omega)) (fun e he => (hes e he).1) (by omega) (by rw [hadv]; decide)
  exact ⟨k, ⟨t⟩, hlen ▸ hk, (run_eq_outcome k s).trans (outcome_eq_next_iff.mpr hrun), ht⟩

end Sys2Proof.Machine
end

section
/-! PROOFS. Reception is readResponse (41_receive_check.md sections 2 and 3): what a run inside RECV has collected, and how CHECK judges
it. -/

namespace Sys2Proof.Machine

variable {w : Nat}

/-! ### What RECV collects -/

/-- R124, R125: storing at index `i` adds the byte to the `i` collected before it. -/
theorem take_set_succ (l : List Byte) {i : Nat} (b : Byte) (hi : i < l.length) : (l.set i b).take (i + 1) = l.take i ++ [b] := by
  rw [List.take_succ_eq_append_getElem (by simpa using hi), List.take_set_of_le (Nat.le_refl i), List.getElem_set_self]

/-- R124: the guard acts on the first byte alone. -/
theorem afterGuard_append {taken : List Byte} (h : taken ≠ []) (bs : List Byte) :
    afterGuard (taken ++ bs) = afterGuard taken ++ bs := by
  obtain ⟨b, taken, rfl⟩ := List.exists_cons_of_ne_nil h
  simp only [List.cons_append, afterGuard]
  split <;> rfl

/-- A taken byte writes the receive buffer with its count, and the guard. -/
theorem Regs.take_frame {r r' : Regs w} {b : Byte} (h : r.take b = .ok r') :
    r' = { r with rxBuf := r'.rxBuf, rxCnt := r'.rxCnt, leadGuard := r'.leadGuard } := by
  rcases Regs.take_eq_ok h with ⟨-, -, rfl⟩ | ⟨-, -, rfl⟩ <;> rfl

/-- What a run inside RECV from `s0` has done when it took the bytes `taken`: the buffer holds them less one leading zero, the guard
is set exactly while none was taken, and nothing else of the block or of the bytes sent has changed. -/
structure State.Collected (s0 : State) (taken : List Byte) (s : State) : Prop where
  st : s.regs.st = .recv
  frame : s.regs = { s0.regs with rxBuf := s.regs.rxBuf, rxCnt := s.regs.rxCnt, leadGuard := s.regs.leadGuard }
  txq : s.txq = s0.txq
  count_le : s.regs.rxCnt.toNat ≤ 6
  collected : s.regs.rxBuf.toList.take s.regs.rxCnt.toNat = afterGuard taken
  guard : s.regs.leadGuard = true ↔ taken = []

theorem State.Collected.count {s0 s : State} {taken : List Byte} (h : s0.Collected taken s) :
    s.regs.rxCnt.toNat = (afterGuard taken).length := by
  rw [← h.collected, List.length_take, Vector.length_toList, Nat.min_eq_left h.count_le]

/-- R124, R125: a taken byte joins those collected, but for a zero that is the first byte taken. -/
theorem State.Collected.take {s0 s t : State} {taken : List Byte} {b : Byte} (h : s0.Collected taken s)
    (htake : s.regs.take b = .ok t.regs) (htxq : t.txq = s.txq) : s0.Collected (taken ++ [b]) t := by
  have hne : taken ++ [b] ≠ [] := by simp
  have hframe : t.regs =
      { s0.regs with rxBuf := t.regs.rxBuf, rxCnt := t.regs.rxCnt, leadGuard := t.regs.leadGuard } :=
    (Regs.take_frame htake).trans (by rw [h.frame])
  rcases Regs.take_eq_ok htake with ⟨hguard, rfl, hregs⟩ | ⟨hzero, hlt, hregs⟩
  · obtain rfl := h.guard.mp hguard
    exact {
      st := by rw [hregs]; exact h.st
      frame := hframe
      txq := htxq.trans h.txq
      count_le := by rw [hregs]; exact h.count_le
      collected := by rw [hregs]; exact h.collected
      guard := iff_of_false (by simp [hregs]) hne }
  · have hsucc : (s.regs.rxCnt + 1).toNat = s.regs.rxCnt.toNat + 1 := by bv_omega
    have happend : afterGuard (taken ++ [b]) = afterGuard taken ++ [b] := by
      by_cases htaken : taken = []
      · rw [htaken]
        exact if_neg fun hb => hzero ⟨h.guard.mpr htaken, hb⟩
      · exact afterGuard_append htaken [b]
    exact {
      st := by rw [hregs]; exact h.st
      frame := hframe
      txq := htxq.trans h.txq
      count_le := by rw [hregs]; show (s.regs.rxCnt + 1).toNat ≤ 6; omega
      collected := by
        rw [hregs, hsucc, Vector.toList_set, take_set_succ _ _ (by simpa using hlt), h.collected, happend]
      guard := iff_of_false (by simp [hregs]) hne }

/-- Every run inside RECV from the start of a window collects. -/
theorem ReceivePath.collected {s0 s : State} {taken : List Byte} (hcnt : s0.regs.rxCnt = 0) (hguard : s0.regs.leadGuard = true)
    (hpath : ReceivePath s0 taken s) : s0.Collected taken s := by
  induction hpath with
  | start hst => exact ⟨hst, rfl, rfl, by simp [hcnt], by simp [hcnt, afterGuard], by simp [hguard]⟩
  | @wait taken s t _ hr hpop hstep hst ih =>
    rcases step_recv_cases ih.st hr hstep with ⟨-, rfl⟩ | ⟨-, -, -, rfl⟩ | ⟨hpop', -⟩
    · cases hst
    · exact ⟨ih.st, ih.frame, ih.txq, ih.count_le, ih.collected, ih.guard⟩
    · cases hpop.symm.trans hpop'
  | @take taken s t b rest _ hr hpop hq hstep hst ih =>
    rcases step_recv_cases ih.st hr hstep with ⟨-, rfl⟩ | ⟨hpop', -⟩ | ⟨-, -, b', rest', r, hq', htake, rfl⟩
    · cases hst
    · cases hpop.symm.trans hpop'
    · obtain ⟨rfl, rfl⟩ := List.cons.inj (hq.symm.trans hq')
      exact ih.take htake rfl

/-! ### How CHECK judges it -/

/-- R127: fewer than six bytes are judged by their number. -/
theorem judge_of_short {tag : Byte} {bs : List Byte} (h : bs.length < 6) :
    judge tag bs = (if bs = [] then .timeout else .framing, 0) := by
  unfold judge
  split
  · rfl
  · simp at h
  · next hne _ => rw [if_neg hne]

/-- R128 to R130, R206: six bytes are judged by their sum, then by their tag. -/
theorem judge_of_six (tag b0 d0 d1 d2 d3 k : Byte) :
    judge tag [b0, d0, d1, d2, d3, k] =
      if cs8 [b0, d0, d1, d2, d3] ≠ k then (.checksum, 0)
      else if b0 ≠ tag then (.tagMismatch, 0) else (.ok, word32 d0 d1 d2 d3) := rfl

theorem Regs.rxBuf_toList (r : Regs w) :
    r.rxBuf.toList = [r.rxBuf[0], r.rxBuf[1], r.rxBuf[2], r.rxBuf[3], r.rxBuf[4], r.rxBuf[5]] :=
  List.ext_getElem (by simp) fun i _ hi => by
    have hi : i < 6 := hi
    interval_cases i <;> simp

/-- R74: with six bytes collected the whole buffer is judged. -/
theorem Regs.judge_of_full {r : Regs w} (h : r.rxCnt = 6) :
    judge r.expTag (r.rxBuf.toList.take r.rxCnt.toNat) =
      if cs8 r.rxSummed ≠ r.rxBuf[5] then (.checksum, 0)
      else if r.rxBuf[0] ≠ r.expTag then (.tagMismatch, 0) else (.ok, r.rxPayload) := by
  rw [List.take_of_length_le (by simp [h]), Regs.rxBuf_toList, judge_of_six, Regs.rxSummed_eq]
  rfl

/-- R127 to R130: CHECK's outcome is the judgement of the bytes collected. -/
theorem Regs.judge_of_checkStep {r r' : Regs w} (h : r.checkStep = .ok r') :
    (r'.status, r'.resData) = judge r.expTag (r.rxBuf.toList.take r.rxCnt.toNat) := by
  rcases Regs.checkStep_eq_ok h with ⟨hlt, rfl⟩ | ⟨hcnt, hsum, rfl⟩ | ⟨hcnt, hsum, htag, rfl⟩ | ⟨hcnt, hsum, htag, rfl⟩
  · have hempty : r.rxBuf.toList.take r.rxCnt.toNat = [] ↔ r.rxCnt = 0 := by
      rw [← List.length_eq_zero_iff, List.length_take, Vector.length_toList, Nat.min_eq_left (by omega), ← BitVec.toNat_inj]
      rfl
    rw [judge_of_short (by simp; omega)]
    simp [hempty]
  · rw [Regs.judge_of_full hcnt, if_pos hsum]
    rfl
  · rw [Regs.judge_of_full hcnt, if_neg (not_not.mpr hsum), if_pos htag]
    rfl
  · rw [Regs.judge_of_full hcnt, if_neg (not_not.mpr hsum), if_neg (not_not.mpr htag)]
    rfl

/-- A step from RECV to CHECK is the exit of the loop, not a reset. -/
theorem step_recv_to_check {s t : State} (hst : s.regs.st = .recv) (hstep : step s = .next t) (ht : t.regs.st = .check) :
    t.regs = { s.regs with st := .check } := by
  cases hr : s.coming.rst
  · rcases step_recv_cases hst hr hstep with ⟨-, rfl⟩ | ⟨-, -, -, rfl⟩ | ⟨-, -, b, rest, r, -, htake, rfl⟩
    · rfl
    · cases hst.symm.trans ht
    · rcases Regs.take_eq_ok htake with ⟨-, -, rfl⟩ | ⟨-, _, rfl⟩ <;> cases hst.symm.trans ht
  · obtain ⟨r, hnext, rfl⟩ := step_eq_next_iff.mp hstep
    obtain rfl := Except.ok.inj ((Regs.next_of_reset hr).symm.trans hnext)
    cases ht

/-- The outcome after the exit and CHECK is the judgement of the bytes collected. -/
theorem State.Collected.judged {s0 s t u : State} {taken : List Byte} (h : s0.Collected taken s) (hexit : step s = .next t)
    (ht : t.regs.st = .check) (hr : t.coming.rst = false) (hcheck : step t = .next u) :
    (u.regs.status, u.regs.resData) = judge s0.regs.expTag (afterGuard taken) := by
  have htag : s.regs.expTag = s0.regs.expTag := by rw [h.frame]
  obtain ⟨r, hnext, rfl⟩ := step_eq_next_iff.mp hcheck
  have hjudge := Regs.judge_of_checkStep ((Regs.next_of_check hr ht).symm.trans hnext)
  rw [step_recv_to_check h.st hexit ht] at hjudge
  rw [State.advanced_regs, hjudge, h.collected, htag]

/-- Settles O43: by induction on the run inside RECV, then by the judgement of CHECK. -/
theorem receptionIsReadResponse : Obligations.ReceptionIsReadResponse := by
  intro s0 s taken hcnt hguard hpath
  have h := hpath.collected hcnt hguard
  exact ⟨h.collected, h.guard, fun _ _ => h.judged⟩

end Sys2Proof.Machine
end

section
/-! PROOFS. A whole operation (42_operations.md R150 to R156, 70_reset_and_hazards.md R242): acceptance, seven ready steps, the response
taken as it comes, the exit and CHECK, joined into one run. -/

namespace Sys2Proof.Machine

/-! ### Runs with the bytes they take from the transport -/

theorem step_inputs {s t : State} (h : step s = .next t) : t.inputs = s.inputs.tail := by
  obtain ⟨r, -, rfl⟩ := step_eq_next_iff.mp h
  rfl

theorem run_inputs {n : Nat} {s t : State} (h : run n s = .next t) : t.inputs = s.inputs.drop n := by
  induction n generalizing s with
  | zero => cases h; rfl
  | succ n ih =>
    cases hs : step s with
    | next u => rw [ih ((run_succ_of_next hs).symm.trans h), step_inputs hs, List.drop_tail]
    | fault f => cases (run_succ_of_fault hs).symm.trans h
    | refused x => cases (run_succ_of_refused hs).symm.trans h

/-- `n` steps lead from `s` to `t`, in which the transport gives up exactly the bytes `bs`. -/
structure State.Reaches (s : State) (n : Nat) (bs : List Byte) (t : State) : Prop where
  run : Machine.run n s = .next t
  queue : s.rxq ++ arrivalsOf (s.inputs.take n) = bs ++ t.rxq

theorem State.Reaches.refl (s : State) : s.Reaches 0 [] s := ⟨rfl, by simp⟩

theorem State.Reaches.trans {s t u : State} {m n : Nat} {bs cs : List Byte} (h : s.Reaches m bs t) (h' : t.Reaches n cs u) :
    s.Reaches (m + n) (bs ++ cs) u where
  run := (run_add h.run).trans h'.run
  queue := by
    rw [List.take_add, arrivalsOf_append, ← run_inputs h.run, ← List.append_assoc, h.queue, List.append_assoc, h'.queue,
      List.append_assoc]

/-- One step of a run, by what it does to the queue. -/
theorem State.Reaches.of_step {s t : State} {e : EnvStep Config.timeW} {es : List (EnvStep Config.timeW)} {bs : List Byte}
    (hin : s.inputs = e :: es) (hstep : step s = .next t) (hq : s.rxq ++ e.arrivals = bs ++ t.rxq) : s.Reaches 1 bs t where
  run := run_succ_of_next hstep
  queue := by simpa [hin] using hq

/-! ### Taking bytes that come in time -/

section ComeInTime
variable {w n : Nat} {held : List Byte} {e : EnvStep w} {es : List (EnvStep w)}

/-- A step that finds no byte leaves the bytes in time. -/
theorem comeInTime.wait (h : comeInTime n held (e :: es)) (hq : held ++ e.arrivals = []) : comeInTime n [] es := by
  obtain ⟨hlen, htime⟩ := h
  have hlate (j : Nat) (hj : j < n) (hje : j ≤ es.length) :
      n - j ≤ ([] ++ arrivalsOf (es.take (es.length - j))).length := by
    have := htime j hj
    rwa [List.length_cons, Nat.succ_sub hje, List.take_succ_cons, arrivalsOf_cons, ← List.append_assoc, hq] at this
  have hn : n ≤ es.length := by
    by_contra hgt
    have := hlate es.length (by omega) le_rfl
    simp at this
    omega
  exact ⟨hn, fun j hj => hlate j hj (by omega)⟩

/-- A step that takes a byte leaves the others in time. -/
theorem comeInTime.take {b : Byte} {rest : List Byte} (h : comeInTime (n + 1) held (e :: es))
    (hq : held ++ e.arrivals = b :: rest) : comeInTime n rest es := by
  obtain ⟨hlen, htime⟩ := h
  have hn : n ≤ es.length := by simpa using hlen
  refine ⟨hn, fun j hj => ?_⟩
  have := htime j (by omega)
  rw [List.length_cons, Nat.succ_sub (hj.le.trans hn), List.take_succ_cons, arrivalsOf_cons, ← List.append_assoc, hq,
    List.cons_append, List.length_cons] at this
  omega

end ComeInTime

/-- A byte in an open window is taken. -/
theorem exists_step_of_take {s : State} {b : Byte} {rest : List Byte} (hst : s.regs.st = .recv) (hr : s.coming.rst = false)
    (hcnt : s.regs.rxCnt.toNat < 6) (htime : (s.now + s.coming.advance - s.regs.tStart).toNat ≤ Config.timeoutMs)
    (hq : s.rxq ++ s.coming.arrivals = b :: rest) :
    (s.outs s.coming).rxPop = true ∧ ∃ r, s.regs.take b = .ok r ∧ step s = .next (s.advanced r rest s.txq) := by
  have hpop : (s.outs s.coming).rxPop = true :=
    (byteIsConsumedOnlyInAnOpenWindow s s.coming).mpr ⟨hst, hr, by simp [hq], by bv_omega, htime⟩
  obtain ⟨r, htake⟩ := Regs.exists_take hcnt b
  exact ⟨hpop, r, htake, step_of_recv_pop hpop hq htake⟩

/-- The bytes collected grow by what is still to come, but for a leading zero. -/
theorem length_afterGuard_lt {taken : List Byte} {b : Byte} {bs : List Byte} (h : (afterGuard (taken ++ b :: bs)).length ≤ 6) :
    (afterGuard taken).length < 6 := by
  by_cases htaken : taken = []
  · simp [htaken, afterGuard]
  · rw [afterGuard_append htaken] at h
    simp at h
    omega

/-- Bytes that come in time are all taken, with steps of waiting wherever none is there. -/
theorem ReceivePath.exists_reaches {s0 s : State} {taken bs later : List Byte} {es rest : List (EnvStep Config.timeW)}
    (hcnt : s0.regs.rxCnt = 0) (hguard : s0.regs.leadGuard = true) (hpath : ReceivePath s0 taken s)
    (hin : s.inputs = es ++ rest) (hr : ∀ e ∈ es, e.rst = false) (hbytes : s.rxq ++ arrivalsOf es = bs ++ later)
    (htime : comeInTime bs.length s.rxq es) (hwindow : (s.now - s0.regs.tStart).toNat + advanceOf es ≤ Config.timeoutMs)
    (hfit : (afterGuard (taken ++ bs)).length ≤ 6) :
    ∃ k t, bs.length ≤ k ∧ k ≤ es.length ∧ s.Reaches k bs t ∧ ReceivePath s0 (taken ++ bs) t := by
  induction es generalizing s taken bs with
  | nil =>
    obtain rfl : bs = [] := List.eq_nil_of_length_eq_zero (Nat.le_zero.mp htime.1)
    exact ⟨0, s, le_rfl, le_rfl, .refl s, by simpa using hpath⟩
  | cons e es ih =>
    cases bs with
    | nil => exact ⟨0, s, le_rfl, Nat.zero_le _, .refl s, by simpa using hpath⟩
    | cons b bs =>
      obtain ⟨hre, hr⟩ := List.forall_mem_cons.mp hr
      have hcoming : s.coming = e := System.coming_cons hin
      have hc := hpath.collected hcnt hguard
      have hlt : s.regs.rxCnt.toNat < 6 := hc.count ▸ length_afterGuard_lt hfit
      have hstart : s.regs.tStart = s0.regs.tStart := by rw [hc.frame]
      rw [advanceOf_cons, ← Nat.add_assoc] at hwindow
      have helapsed : (s.now + e.advance - s0.regs.tStart).toNat = (s.now - s0.regs.tStart).toNat + e.advance.toNat :=
        toNat_add_sub_of_lt (Nat.lt_of_le_of_lt ((Nat.le_add_right _ _).trans hwindow) (by decide))
      have hopen : (s.now + s.coming.advance - s.regs.tStart).toNat ≤ Config.timeoutMs := by
        rw [hcoming, hstart, helapsed]
        omega
      have hrst : s.coming.rst = false := by rw [hcoming, hre]
      rw [← helapsed, ← hcoming] at hwindow
      rw [arrivalsOf_cons, ← List.append_assoc, ← hcoming] at hbytes
      cases hq : s.rxq ++ s.coming.arrivals with
      | nil =>
        obtain ⟨hpop, hstep⟩ := recvWaitsWithoutAByte s hc.st hrst (by bv_omega) hopen hq
        obtain ⟨k, t, hk, hk', hreach, hpath'⟩ := ih (hpath.wait hrst hpop hstep hc.st) (by simp [hin]) hr
          (by rwa [hq] at hbytes) (htime.wait (hcoming ▸ hq)) hwindow hfit
        have hwait := State.Reaches.of_step (bs := []) hin hstep (by rw [← hcoming]; exact hq)
        exact ⟨1 + k, t, by omega, by rw [List.length_cons]; omega, hwait.trans hreach, hpath'⟩
      | cons b' queue =>
        rw [hq] at hbytes
        obtain ⟨rfl, hlater⟩ := List.cons.inj hbytes
        obtain ⟨hpop, r, htake, hstep⟩ := exists_step_of_take hc.st hrst hlt hopen hq
        have hst : r.st = .recv := by rw [Regs.take_frame htake]; exact hc.st
        obtain ⟨k, t, hk, hk', hreach, hpath'⟩ := ih (hpath.take hrst hpop hq hstep hst) (by simp [hin]) hr
          hlater (htime.take (hcoming ▸ hq)) hwindow (by simpa using hfit)
        have htook := State.Reaches.of_step (bs := [b']) hin hstep (by rw [← hcoming]; exact hq)
        exact ⟨1 + k, t, by rw [List.length_cons]; omega, by rw [List.length_cons]; omega, htook.trans hreach,
          by simpa using hpath'⟩

/-! ### The phases of an operation -/

/-- R104: a step that presents an operation's instruction accepts it. -/
theorem step_of_presents {i : Instr} {op : Operation} {s : State} (hop : Operation.ofByte? i.request.cmd = some op)
    (hst : s.regs.st = .idle) (hr : s.coming.rst = false) (hpresents : s.coming.presents i) :
    step s = .next (s.advanced (s.regs.accept op i.request.addr i.request.payload) (s.rxq ++ s.coming.arrivals) s.txq) := by
  obtain ⟨hvalid, hdecode⟩ := hpresents
  rw [step_of_request hst hr hvalid, hdecode]
  exact exec_of_operation hst hr hop

/-- R104, R108: acceptance and seven ready steps send the frame and open the window. -/
theorem exists_reaches_recv {i : Instr} {op : Operation} {s : State} {accept : EnvStep Config.timeW}
    {sends rest : List (EnvStep Config.timeW)} (hi : i.isOperation = true) (hop : Operation.ofByte? i.request.cmd = some op)
    (hst : s.regs.st = .idle) (hpresents : accept.presents i) (hin : s.inputs = accept :: (sends ++ rest))
    (hlen : sends.length = 7) (hr : accept.rst = false) (hsends : ∀ e ∈ sends, e.rst = false ∧ e.txReady = true) :
    ∃ t, s.Reaches (1 + 7) [] t ∧
      t.regs = { s.regs.accept op i.request.addr i.request.payload with txIdx := 7, st := .recv, tStart := t.now } ∧
      t.txq = s.txq ++ i.encode ∧ t.rxq = s.rxq ++ accept.arrivals ++ arrivalsOf sends ∧ t.inputs = rest := by
  obtain rfl : s.coming = accept := System.coming_cons hin
  have haccept := step_of_presents hop hst hr hpresents
  have hin' := (step_inputs haccept).trans (congrArg List.tail hin)
  obtain ⟨t, hrun, hregs, htxq, hrxq, hrest⟩ := sevenReadyStepsSendTheFrame _ sends rest rfl rfl hin' hlen hsends
  have hfirst := State.Reaches.of_step (bs := []) hin haccept rfl
  refine ⟨t, hfirst.trans (bs := []) ⟨hrun, ?_⟩, hregs, ?_, hrxq, hrest⟩
  · rw [List.nil_append, hrxq, hin', List.tail_cons, ← hlen, List.take_left]
  · rw [htxq, Instr.encode_eq hop hi]
    rfl

/-- R122, R131: with six bytes collected the loop exits, and CHECK ends the operation with the judgement of the bytes taken. -/
theorem State.Collected.exists_reaches_idle {s0 s : State} {taken : List Byte} {exit check : EnvStep Config.timeW}
    {rest : List (EnvStep Config.timeW)} (h : s0.Collected taken s) (hfull : (afterGuard taken).length = 6)
    (hin : s.inputs = exit :: check :: rest) (hexit : exit.rst = false) (hcheck : check.rst = false) :
    ∃ u, s.Reaches (1 + 1) [] u ∧ u.regs.st = .idle ∧ u.regs.done = true ∧ u.regs.cmdBuf = s0.regs.cmdBuf ∧ u.txq = s0.txq ∧
      (u.regs.status, u.regs.resData) = judge s0.regs.expTag (afterGuard taken) := by
  have hcount := h.count
  have hcoming : s.coming = exit := System.coming_cons hin
  obtain ⟨-, hstep⟩ := recvExitsWhenFullOrLate s h.st (by rw [hcoming, hexit]) (.inl (by bv_omega))
  have hcoming' : (s.advanced { s.regs with st := .check } (s.rxq ++ s.coming.arrivals) s.txq).coming = check :=
    System.coming_cons (es := rest) (by simp [hin])
  obtain ⟨o, d, hfin, -⟩ := Regs.exists_checkStep (r := { s.regs with st := .check }) h.count_le
  have hstep' := step_of_check (s := s.advanced _ _ _) rfl (by rw [hcoming', hcheck]) hfin
  have hfirst := State.Reaches.of_step (bs := []) hin hstep (by rw [hcoming]; rfl)
  have hsecond := State.Reaches.of_step (bs := []) (e := check) (es := rest) (by simp [hin]) hstep' (by rw [hcoming']; rfl)
  refine ⟨_, hfirst.trans hsecond, rfl, rfl, ?_, h.txq, h.judged hstep rfl (by rw [hcoming', hcheck]) hstep'⟩
  show s.regs.cmdBuf = s0.regs.cmdBuf
  rw [h.frame]

/-- R74: the response frame of an operation with the given data bytes. -/
def responseFrame (op : Operation) (d0 d1 d2 d3 : Byte) : List Byte :=
  [op.tag, d0, d1, d2, d3, cs8 [op.tag, d0, d1, d2, d3]]

/-- R133: no tag is zero, so the guard discards the leading zero and nothing of the frame. -/
theorem afterGuard_responseFrame {lead : List Byte} (hlead : lead = [] ∨ lead = [0x00]) (op : Operation) (d0 d1 d2 d3 : Byte) :
    afterGuard (lead ++ responseFrame op d0 d1 d2 d3) = responseFrame op d0 d1 d2 d3 := by
  rcases hlead with rfl | rfl
  · exact if_neg op.tag_ne_zero
  · rfl

theorem judge_responseFrame (op : Operation) (d0 d1 d2 d3 : Byte) :
    judge op.tag (responseFrame op d0 d1 d2 d3) = (.ok, word32 d0 d1 d2 d3) := by
  simp [responseFrame, judge_of_six]

/-- Two steps are left after any part of the window's steps. -/
theorem exists_two_of_drop {α : Type} {P : α → Prop} {l : List α} {x y : α} (rest : List α) (k : Nat) (hl : ∀ a ∈ l, P a)
    (hx : P x) (hy : P y) : ∃ a b rest', l.drop k ++ x :: y :: rest = a :: b :: rest' ∧ P a ∧ P b := by
  have hdrop : ∀ a ∈ l.drop k, P a := fun a ha => hl a (List.mem_of_mem_drop ha)
  match h : l.drop k with
  | [] => exact ⟨x, y, rest, rfl, hx, hy⟩
  | [a] => exact ⟨a, x, y :: rest, rfl, hdrop a (by simp [h]), hx⟩
  | a :: b :: l' => exact ⟨a, b, l' ++ x :: y :: rest, rfl, hdrop a (by simp [h]), hdrop b (by simp [h])⟩

/-- Settles O44: the run of the three phases, in which the window holds every step that takes a byte. -/
theorem operationAnsweredInTimeSucceeds : Obligations.OperationAnsweredInTimeSucceeds := by
  intro i op s accept sends takes exit check rest lead d0 d1 d2 d3 later hi hop hst hpresents hlead hin hlen hraccept hsends
    htakes hrexit hrcheck hbytes htime hwindow
  obtain ⟨s1, hsend, hregs, htxq, hrxq, hin1⟩ :=
    exists_reaches_recv hi hop hst hpresents hin hlen hraccept hsends
  have hguarded := afterGuard_responseFrame hlead op d0 d1 d2 d3
  have hlength : (lead ++ responseFrame op d0 d1 d2 d3).length = 6 + lead.length := by
    rw [List.length_append, Nat.add_comm]
    rfl
  obtain ⟨k, s2, hk, hk', hreceive, hpath⟩ := ReceivePath.exists_reaches (bs := lead ++ responseFrame op d0 d1 d2 d3)
    (by rw [hregs]; rfl) (by rw [hregs]; rfl) (.start (by rw [hregs])) hin1 htakes (by rw [hrxq]; exact hbytes)
    (by rw [hrxq, hlength]; exact htime) (by rw [hregs]; simpa using hwindow) (by rw [List.nil_append, hguarded]; exact le_rfl)
  have hcollected := hpath.collected (by rw [hregs]; rfl) (by rw [hregs]; rfl)
  rw [List.nil_append] at hcollected
  obtain ⟨e, e', rest', hin2, he, he'⟩ := exists_two_of_drop (P := fun e => e.rst = false) rest k htakes hrexit hrcheck
  rw [← List.drop_append_of_le_length hk', ← hin1, ← run_inputs hreceive.run] at hin2
  obtain ⟨t, hfinish, htst, htdone, htbuf, httxq, hjudge⟩ :=
    hcollected.exists_reaches_idle (by rw [hguarded]; rfl) hin2 he he'
  have htag : s1.regs.expTag = op.tag := by rw [hregs]; rfl
  rw [hguarded, htag, judge_responseFrame, Prod.mk.injEq] at hjudge
  obtain ⟨hstatus, hdata⟩ := hjudge
  have hrun := (hsend.trans hreceive).trans hfinish
  refine ⟨1 + 7 + k + (1 + 1), t, by omega, by omega, hrun.run, htst, htdone, hstatus, hdata, ?_, httxq.trans htxq, ?_,
    run_inputs hrun.run⟩
  · rw [htbuf, hregs]
    rfl
  · simpa [responseFrame] using hrun.queue

end Sys2Proof.Machine
end

section
/-! PROOFS. The reference environment (20_memory.md R63): what it drives on the request and receive ports, and what one of its steps
does with the time, the requests and the received bytes. -/

namespace Sys2Proof.Machine

variable {w : Nat}

/-! ### The ports -/

/-- R63: the request stands on the ports exactly in a step with `req_ready = 1`. -/
theorem RefEnv.reqReady_eq_presents (env : RefEnv) (s : System w) : (s.outs (env.drive s)).reqReady = env.presents s := by
  show (s.regs.st == .idle && !(env.drive s).rst) = env.presents s
  rw [RefEnv.drive_rst]
  rfl

theorem RefEnv.presents_iff {env : RefEnv} {s : System w} :
    env.presents s = true ↔ s.regs.st = .idle ∧ env.k ∉ env.resets := by
  simp [RefEnv.presents]

theorem RefEnv.drive_reqValid_iff {env : RefEnv} {s : System w} :
    (env.drive s).reqValid = true ↔ env.presents s = true ∧ env.requests ≠ [] := by
  unfold RefEnv.drive
  cases env.requests with
  | nil => simp
  | cons q qs => cases h : env.presents s <;> simp

theorem RefEnv.drive_request {env : RefEnv} {s : System w} {q : Request} {qs : List Request} (h : env.requests = q :: qs)
    (hp : env.presents s = true) :
    (env.drive s).reqCmd = q.cmd ∧ (env.drive s).reqAddr = q.addr ∧ (env.drive s).reqPayload = q.payload := by
  unfold RefEnv.drive
  rw [h]
  simp [hp]

theorem RefEnv.available_of_nil {env : RefEnv} (h : env.rx = []) : env.available w = [] := by
  simp [RefEnv.available, h]

/-- R63: RXQ's head is there from its arrival time on. -/
theorem RefEnv.available_of_cons {env : RefEnv} {x : RxByte} {xs : List RxByte} (h : env.rx = x :: xs) :
    env.available w = if x.arrivalMs ≤ (env.t0 + env.k) % 2 ^ w ∧ x.fromStep ≤ env.k then [x.byte] else [] := by
  simp [RefEnv.available, h, RefEnv.nowMs]

/-- With nothing left over in the transport, the queue of the step is what RXQ offers. -/
theorem RefEnv.queue_of_empty {env : RefEnv} {s : System w} (h : s.rxq = []) :
    s.rxq ++ (env.drive s).arrivals = env.available w := by
  simp [h]

/-- R63: the clock shows `t0 + k`, whatever it showed before. -/
theorem RefEnv.now_add_advance (env : RefEnv) (s : System w) : s.now + (env.drive s).advance = env.nowMs w := by
  rw [RefEnv.drive_advance, add_sub_cancel]

theorem RefEnv.pins_rxAvail_iff {env : RefEnv} {s : System w} {x : RxByte} {xs : List RxByte} (hq : s.rxq = [])
    (hrx : env.rx = x :: xs) :
    (s.pins (env.drive s)).rxAvail = true ↔ x.arrivalMs ≤ (env.t0 + env.k) % 2 ^ w ∧ x.fromStep ≤ env.k := by
  rw [System.pins_rxAvail_iff, RefEnv.queue_of_empty hq, RefEnv.available_of_cons hrx]
  simp

theorem RefEnv.pins_rxData {env : RefEnv} {s : System w} {x : RxByte} {xs : List RxByte} (hq : s.rxq = [])
    (hrx : env.rx = x :: xs) (havail : (s.pins (env.drive s)).rxAvail = true) : (s.pins (env.drive s)).rxData = x.byte := by
  refine System.pins_rxData_of_cons (rest := []) ?_
  rw [RefEnv.queue_of_empty hq, RefEnv.available_of_cons hrx, if_pos ((RefEnv.pins_rxAvail_iff hq hrx).mp havail)]

/-! ### One step -/

/-- What a step of the reference environment leaves: the time shown, and in the transport what was left over, less a byte taken. -/
theorem RefEnv.step_leaves {env env' : RefEnv} {s t : State} (h : env.step s = .next (env', t)) :
    env' = env.after s.toSystem ∧ t.now = env.nowMs Config.timeW ∧
      t.rxq = if s.rxq.isEmpty then [] else s.queueAfter (env.drive s.toSystem) := by
  obtain ⟨u, hstep, henv, rfl⟩ := RefEnv.step_eq_next h
  obtain ⟨r, -, rfl⟩ := step_eq_next_iff.mp hstep
  have hnow := env.now_add_advance s.toSystem
  refine ⟨henv, ?_, ?_⟩ <;> split
  · exact hnow
  · exact hnow
  · rfl
  · rfl

/-- RXQ loses its head exactly when nothing was left over and a byte was taken. -/
theorem RefEnv.after_rx_of_empty {env : RefEnv} {s : System w} (h : s.rxq = []) :
    (env.after s).rx = if (s.outs (env.drive s)).rxPop = true then env.rx.tail else env.rx := by
  simp [RefEnv.after, h]

theorem RefEnv.after_rx_of_left_over {env : RefEnv} {s : System w} (h : s.rxq.isEmpty = false) : (env.after s).rx = env.rx := by
  simp [RefEnv.after, h]

/-- R53: what a clock edge takes from the queue, at most its head. -/
theorem System.exists_taken (s : System w) (e : EnvStep w) (T : Nat) :
    ∃ taken : List Byte, taken.length ≤ 1 ∧ taken ++ s.queueAfter e T = s.rxq ++ e.arrivals := by
  cases hpop : (s.outs e T).rxPop
  · exact ⟨[], by simp, by rw [System.queueAfter_of_not_pop hpop]; rfl⟩
  · obtain ⟨-, -, -, havail⟩ := Regs.rxPop_eq_true_iff.mp hpop
    obtain ⟨b, rest, hq⟩ := List.exists_cons_of_ne_nil (System.pins_rxAvail_iff.mp havail)
    exact ⟨[b], by simp, by rw [System.queueAfter_of_pop hpop, hq]; rfl⟩

/-- A byte taken with nothing left over in the transport is RXQ's head. -/
theorem RefEnv.exists_taken_of_empty {env : RefEnv} {s : System w} (h : s.rxq = []) :
    ∃ taken : List Byte, taken.length ≤ 1 ∧ taken ++ (env.after s).rx.map RxByte.byte = env.rx.map RxByte.byte := by
  rw [RefEnv.after_rx_of_empty h]
  by_cases hpop : (s.outs (env.drive s)).rxPop = true
  · obtain ⟨-, -, -, havail⟩ := Regs.rxPop_eq_true_iff.mp hpop
    have hne := System.pins_rxAvail_iff.mp havail
    rw [RefEnv.queue_of_empty h] at hne
    obtain ⟨x, xs, hrx, -⟩ := (env.available_cases w).resolve_left hne
    exact ⟨[x.byte], by simp, by rw [if_pos hpop, hrx]; rfl⟩
  · exact ⟨[], by simp, by rw [if_neg hpop]; rfl⟩

/-- Settles O48: the clock's advance makes up for what it showed, and a byte taken comes from what was left over, or else from RXQ. -/
theorem referenceEnvironmentKeepsTime : Obligations.ReferenceEnvironmentKeepsTime := by
  intro env env' s t h
  obtain ⟨rfl, hnow, hrxq⟩ := RefEnv.step_leaves h
  refine ⟨hnow, rfl, rfl, if_congr RefEnv.presents_iff rfl rfl, ?_⟩
  rw [hrxq]
  cases hempty : s.rxq.isEmpty
  · obtain ⟨taken, hlen, htaken⟩ := s.toSystem.exists_taken (env.drive s.toSystem) Config.timeoutMs
    rw [RefEnv.drive_arrivals, hempty] at htaken
    refine ⟨taken, hlen, ?_⟩
    rw [RefEnv.after_rx_of_left_over hempty, ← List.append_assoc]
    simpa using congrArg (· ++ env.rx.map RxByte.byte) htaken
  · have hnil := List.isEmpty_iff.mp hempty
    obtain ⟨taken, hlen, htaken⟩ := env.exists_taken_of_empty hnil
    exact ⟨taken, hlen, by simpa [hnil] using htaken⟩

/-- Settles O58: port by port, then by what a step leaves. -/
theorem referenceEnvironmentDrivesThePorts : Obligations.ReferenceEnvironmentDrivesThePorts := by
  refine ⟨fun w env s => ⟨by simp, by simp, env.now_add_advance s, ?_, fun q qs hq hvalid => ?_, fun hq hrx => ?_,
    fun x xs hq hrx => ⟨RefEnv.pins_rxAvail_iff hq hrx, RefEnv.pins_rxData hq hrx⟩⟩, fun env env' s t h hq => ?_⟩
  · rw [RefEnv.reqReady_eq_presents]
    exact RefEnv.drive_reqValid_iff
  · exact RefEnv.drive_request hq (RefEnv.drive_reqValid_iff.mp hvalid).1
  · refine System.pins_rxAvail_of_empty ?_
    rw [RefEnv.queue_of_empty hq, RefEnv.available_of_nil hrx]
  · obtain ⟨rfl, -, hrxq⟩ := RefEnv.step_leaves h
    exact ⟨by simpa [hq] using hrxq, RefEnv.after_rx_of_empty hq⟩

end Sys2Proof.Machine
end
